-- ==== Sys2Proof/Word.lean ====
section
/-! DEFINITION. The bit-vector types of the block's ports and words (spec/10_state.md R15 to R18,
spec/20_memory.md R48, spec/30_encoding.md R54). -/

namespace Sys2Proof

/-- An 8-bit quantity: a duty cycle, an angle in degrees, a word's payload field, a character code. -/
abbrev Byte := BitVec 8

/-- The 64-bit command descriptor `cmd_desc` (R54). -/
abbrev Descriptor := BitVec 64

/-- The 32-bit `operand` field of the descriptor (R54). -/
abbrev Operand := BitVec 32

/-- The 20-bit command word as its fields and the port `rsp_word[19:0]` lay it out (R16, R43, R63). -/
abbrev CmdWord := BitVec 20

/-- A pulse width in microseconds as the PULSE port carries it (R48). -/
abbrev Micros := BitVec 16

/-- The hex character sequence `cmd_hex`: finite, any length, first element first (R15, R67). -/
abbrev HexSeq := List Byte

end Sys2Proof
end

