-- ==== Sys2Proof/Syntax.lean ====
section
/-! DEFINITION. The commands (spec/30_encoding.md R54 to R62, R74): the decoded form of every row of
spec/opcode_table.json, with the operands R55 says its operation reads. -/

namespace Sys2Proof

/-- What the host offers on the command channel: a descriptor and a hex sequence (R15, R54). -/
structure Command where
  desc : Descriptor
  hex  : HexSeq
deriving DecidableEq, Repr

/-- The two servo channels (R41): 1 is the left hand, 2 the right hand. -/
inductive Servo where
  | one | two
deriving DecidableEq, Repr

/-- The two wheels (R41): A is the right wheel, B the left. A wheel has one direction line and one duty
channel. -/
inductive Wheel where
  | a | b
deriving DecidableEq, Repr

/-- The nine keywords (R59). -/
inductive Keyword where
  | forward | backward | turnLeft | turnRight
  | diagonalForwardRight | diagonalForwardLeft | diagonalBackwardRight | diagonalBackwardLeft
  | stop
deriving DecidableEq, Repr

/-- The `kw` field (R59): a keyword, or one of the unrecognized codes 9 to 15. -/
inductive KwCode where
  | known (k : Keyword)
  | unrecognized (code : BitVec 4)
deriving DecidableEq, Repr

/-- The `ch` field (R62): a servo channel, or one of the codes 0 and 3 that select none. -/
inductive ChannelSel where
  | channel (s : Servo)
  | noChannel (code : BitVec 2)
deriving DecidableEq, Repr

/-- The explicit speeds of DRIVE_KW (R60). -/
structure SpeedPair where
  a : Byte
  b : Byte
deriving DecidableEq, Repr

/-- The commands. -/
inductive Instr where
  /-- DECODE: the input value `operand[31:0]` (R84). -/
  | decode (v : Operand)
  /-- PARSEHEX: the sequence `cmd_hex` (R88). -/
  | parseHex (c : HexSeq)
  /-- MOTOR_RAW: the input value `operand[31:0]` (R99). -/
  | motorRaw (v : Operand)
  /-- MOTOR_HEX: the sequence `cmd_hex` (R101). -/
  | motorHex (c : HexSeq)
  /-- DRIVE_KW: the keyword code, and the speeds when `has_speed = 1` (R106). -/
  | driveKw (k : KwCode) (speeds : Option SpeedPair)
  /-- DRIVE_VEC: the two signed components, as 16-bit two's complement encodes them (R61, R111). -/
  | driveVec (a b : Int)
  /-- SERVO_RAW: the input value `operand[31:0]` (R128). -/
  | servoRaw (v : Operand)
  /-- SERVO_HEX: the sequence `cmd_hex` (R138). -/
  | servoHex (c : HexSeq)
  /-- SERVO_STEP: the channel, and `up` when `dir = 1` (R141). -/
  | servoStep (ch : ChannelSel) (up : Bool)
  /-- SERVO_SWEEP: the channel, and `up` when `dir = 1` (R145). -/
  | servoSweep (ch : ChannelSel) (up : Bool)
  /-- The reserved operations (R154), one for each row of the table. -/
  | reserved0
  | reservedB
  | reservedC
  | reservedD
  | reservedE
  | reservedF
deriving DecidableEq, Repr

end Sys2Proof
end

