-- ==== Sys2Proof/Decode.lean ====
section
/-! DEFINITION. The descriptor decoder (spec/30_encoding.md R54 to R62), the encoder beside it (R73), and the
functions a host builds commands with (R66, R75). The decoder is total and refuses nothing: "there is no illegal
descriptor, only reserved operations" (R58). -/

namespace Sys2Proof

/-! ### Fields of the descriptor (R54) -/

/-- Bits 63:60. -/
def Descriptor.op (d : Descriptor) : BitVec 4 := d.extractLsb' 60 4

/-- Bits 59:56. -/
def Descriptor.kw (d : Descriptor) : BitVec 4 := d.extractLsb' 56 4

/-- Bit 55. -/
def Descriptor.hasSpeed (d : Descriptor) : Bool := d.getLsbD 55

/-- Bit 54. -/
def Descriptor.dir (d : Descriptor) : Bool := d.getLsbD 54

/-- Bits 53:52. -/
def Descriptor.ch (d : Descriptor) : BitVec 2 := d.extractLsb' 52 2

/-- Bits 31:0. -/
def Descriptor.operand (d : Descriptor) : Operand := d.extractLsb' 0 32

/-! ### Codes (R59, R62) -/

/-- The keyword a code names (R59). -/
def KwCode.ofBits (k : BitVec 4) : KwCode :=
  match k.toNat with
  | 0 => .known .forward
  | 1 => .known .backward
  | 2 => .known .turnLeft
  | 3 => .known .turnRight
  | 4 => .known .diagonalForwardRight
  | 5 => .known .diagonalForwardLeft
  | 6 => .known .diagonalBackwardRight
  | 7 => .known .diagonalBackwardLeft
  | 8 => .known .stop
  | _ => .unrecognized k

/-- The code of a keyword (R59). -/
def Keyword.code : Keyword → BitVec 4
  | .forward => 0
  | .backward => 1
  | .turnLeft => 2
  | .turnRight => 3
  | .diagonalForwardRight => 4
  | .diagonalForwardLeft => 5
  | .diagonalBackwardRight => 6
  | .diagonalBackwardLeft => 7
  | .stop => 8

/-- The code carried by a `kw` operand. -/
def KwCode.bits : KwCode → BitVec 4
  | .known k => k.code
  | .unrecognized code => code

/-- The channel a code selects (R62). -/
def ChannelSel.ofBits (c : BitVec 2) : ChannelSel :=
  match c.toNat with
  | 1 => .channel .one
  | 2 => .channel .two
  | _ => .noChannel c

/-- The code carried by a `ch` operand. -/
def ChannelSel.bits : ChannelSel → BitVec 2
  | .channel .one => 1
  | .channel .two => 2
  | .noChannel code => code

/-- The operand's speeds (R60): speedA in bits 7:0, speedB in bits 15:8, present when `has_speed = 1`. -/
def speedsOf (d : Descriptor) : Option SpeedPair :=
  if d.hasSpeed then some ⟨d.operand.extractLsb' 0 8, d.operand.extractLsb' 8 8⟩ else none

/-! ### The decoder -/

/-- The command a descriptor and a hex sequence stand for: bits 63:60 select the row (R56, R58), and each
operation takes the fields R55 gives it. -/
def decode (d : Descriptor) (hex : HexSeq) : Instr :=
  match d.op.toNat with
  | 0x0 => .reserved0
  | 0x1 => .decode d.operand
  | 0x2 => .parseHex hex
  | 0x3 => .motorRaw d.operand
  | 0x4 => .motorHex hex
  | 0x5 => .driveKw (.ofBits d.kw) (speedsOf d)
  | 0x6 => .driveVec (d.operand.extractLsb' 0 16).toInt (d.operand.extractLsb' 16 16).toInt
  | 0x7 => .servoRaw d.operand
  | 0x8 => .servoHex hex
  | 0x9 => .servoStep (.ofBits d.ch) d.dir
  | 0xA => .servoSweep (.ofBits d.ch) d.dir
  | 0xB => .reservedB
  | 0xC => .reservedC
  | 0xD => .reservedD
  | 0xE => .reservedE
  | _ => .reservedF

/-- The command of an offered descriptor and sequence. -/
def Command.instr (c : Command) : Instr := decode c.desc c.hex

/-- The host's question about one row of the opcode table: the instruction of a descriptor whose bits are `w`.
A row has 64 bits, bit 0 the least significant; a shorter `nbits` leaves the bits above it 0. The table gives the
hex sequence no bits, so it is empty. -/
def decodeTableWord (nbits w : Nat) : Option Instr :=
  if nbits ≤ 64 ∧ w < 2 ^ nbits then some (decode (BitVec.ofNat 64 w) []) else none

/-! ### The encoder (R73) -/

/-- Descriptor assembly, most significant field first, with the reserved bits 51:32 zero (R54, R73). -/
def assemble (op kw : BitVec 4) (hasSpeed dir : Bool) (ch : BitVec 2) (operand : Operand) : Descriptor :=
  op ++ kw ++ BitVec.ofBool hasSpeed ++ BitVec.ofBool dir ++ ch ++ 0#20 ++ operand

/-- The operand that carries explicit speeds: `speedB·2^8 + speedA` (R73). -/
def speedOperand (p : SpeedPair) : Operand := 0#16 ++ p.b ++ p.a

/-- The operand that carries a vector: `(b mod 2^16)·2^16 + (a mod 2^16)` (R73). -/
def vectorOperand (a b : Int) : Operand := BitVec.ofInt 16 b ++ BitVec.ofInt 16 a

/-- A command whose hex sequence is empty. -/
def Command.ofDesc (d : Descriptor) : Command := ⟨d, []⟩

/-- The descriptor and hex sequence of a command (R56, R73, R74). -/
def encode : Instr → Command
  | .decode v => .ofDesc (assemble 0x1 0 false false 0 v)
  | .parseHex c => ⟨assemble 0x2 0 false false 0 0, c⟩
  | .motorRaw v => .ofDesc (assemble 0x3 0 false false 0 v)
  | .motorHex c => ⟨assemble 0x4 0 false false 0 0, c⟩
  | .driveKw k none => .ofDesc (assemble 0x5 k.bits false false 0 0)
  | .driveKw k (some p) => .ofDesc (assemble 0x5 k.bits true false 0 (speedOperand p))
  | .driveVec a b => .ofDesc (assemble 0x6 0 false false 0 (vectorOperand a b))
  | .servoRaw v => .ofDesc (assemble 0x7 0 false false 0 v)
  | .servoHex c => ⟨assemble 0x8 0 false false 0 0, c⟩
  | .servoStep ch up => .ofDesc (assemble 0x9 0 false up ch.bits 0)
  | .servoSweep ch up => .ofDesc (assemble 0xA 0 false up ch.bits 0)
  | .reserved0 => .ofDesc (assemble 0x0 0 false false 0 0)
  | .reservedB => .ofDesc (assemble 0xB 0 false false 0 0)
  | .reservedC => .ofDesc (assemble 0xC 0 false false 0 0)
  | .reservedD => .ofDesc (assemble 0xD 0 false false 0 0)
  | .reservedE => .ofDesc (assemble 0xE 0 false false 0 0)
  | .reservedF => .ofDesc (assemble 0xF 0 false false 0 0)

/-! ### How a host builds words, hex sequences and the pseudo-commands (R66, R91, R75) -/

/-- `encodeMotor` of R66: control bits 0, 0, line A, line B, then speedB, then speedA. -/
def encodeMotor (lineA lineB : Bool) (speedA speedB : Byte) : CmdWord :=
  0#2 ++ BitVec.ofBool lineA ++ BitVec.ofBool lineB ++ speedB ++ speedA

/-- `encodeServo` of R66: control bits 0, 0, channel 2 active, channel 1 active, then target2, then target1. -/
def encodeServo (act1 act2 : Bool) (target1 target2 : Byte) : CmdWord :=
  0#2 ++ BitVec.ofBool act2 ++ BitVec.ofBool act1 ++ target2 ++ target1

/-- A word as the operand of a raw command. -/
def CmdWord.operand (w : CmdWord) : Operand := w.setWidth 32

/-- The uppercase hex character of a nibble (R68, R91). -/
def hexChar (n : BitVec 4) : Byte :=
  if n.toNat < 10 then BitVec.ofNat 8 (0x30 + n.toNat) else BitVec.ofNat 8 (0x41 + (n.toNat - 10))

/-- The five-character uppercase rendering `h(v)` of a word, most significant nibble first (R44, R91). -/
def hexRender (w : CmdWord) : HexSeq :=
  [hexChar (w.extractLsb' 16 4), hexChar (w.extractLsb' 12 4), hexChar (w.extractLsb' 8 4),
   hexChar (w.extractLsb' 4 4), hexChar (w.extractLsb' 0 4)]

/-- `STOP` of R75. -/
def pseudoStop : Instr := .driveKw (.known .stop) none

/-- `ALL_OFF` of R75. -/
def pseudoAllOff : Instr := .motorRaw 0

/-- `MOTOR_SET` of R75. -/
def pseudoMotorSet (lineA lineB : Bool) (speedA speedB : Byte) : Instr :=
  .motorRaw (encodeMotor lineA lineB speedA speedB).operand

/-- `SERVO_MOVE` of R75. -/
def pseudoServoMove (t1 t2 : Byte) : Instr := .servoRaw (encodeServo true true t1 t2).operand

/-- `SERVO1_MOVE` of R75. -/
def pseudoServo1Move (t : Byte) : Instr := .servoRaw (encodeServo true false t 0).operand

/-- `SERVO2_MOVE` of R75. -/
def pseudoServo2Move (t : Byte) : Instr := .servoRaw (encodeServo false true 0 t).operand

end Sys2Proof
end

