-- ==== Sys2Proof/Config.lean ====
section
/-! DEFINITION. The configuration (spec/00_scope.md R6, spec/10_state.md R21): every parameter of the block,
the document's values, and the free values of the model. -/

namespace Sys2Proof

/-- A duration of a SLEEP request: an opaque value without a unit (R161, D24, I21). The model compares
durations and does nothing else with them (DESIGN CHOICE, log 8). -/
structure Duration where
  token : Nat
deriving DecidableEq, Repr, Inhabited

/-- The four direction primitives (R93). -/
inductive DirPrim where
  | goForward | goBackward | goLeft | goRight
deriving DecidableEq, Repr

/-- The levels of direction lines A and B. -/
structure Levels where
  a : Bool
  b : Bool
deriving DecidableEq, Repr

/-- The parameter `DIR_LEVELS` (R95): the line levels of each direction primitive. -/
structure DirLevels where
  forward  : Levels
  backward : Levels
  left     : Levels
  right    : Levels
deriving DecidableEq, Repr

/-- An offset of the keyword table (R103, R104): nothing, one of the two named magnitudes, or any other
integer a table may hold. -/
inductive Offset where
  | zero
  | fix1
  | fix2
  | value (n : Int)
deriving DecidableEq, Repr

/-- One row of the keyword table: the primitive and the offsets subtracted from the two base speeds. -/
structure KwEntry where
  prim : DirPrim
  offA : Offset
  offB : Offset
deriving DecidableEq, Repr

/-- The parameter `KW_TABLE` (R104): a row for each keyword but `stop`, whose row has no offsets. -/
structure KwTable where
  forward               : KwEntry
  backward              : KwEntry
  turnLeft              : KwEntry
  turnRight             : KwEntry
  diagonalForwardRight  : KwEntry
  diagonalForwardLeft   : KwEntry
  diagonalBackwardRight : KwEntry
  diagonalBackwardLeft  : KwEntry
deriving DecidableEq, Repr

/-- The parameter `KW_RANGE_MODE` (R105). -/
inductive KwRangeMode where
  | reject | saturate
deriving DecidableEq, Repr

/-- The parameter `VEC_BRANCHES` (R108, R109). -/
inductive VecBranches where
  | chain | independent
deriving DecidableEq, Repr

/-- The configuration: R6's parameters, fixed for the life of the block (R21). -/
structure Config where
  wordBits      : Nat
  hexMaxLen     : Nat
  posMin        : Nat
  posMax        : Nat
  frames        : Nat
  pulseBase     : Nat
  pulseScale    : Nat
  stepDeg       : Nat
  stopThreshold : Nat
  speedMax      : Nat
  frameDelay    : Duration
  stepDelay     : Duration
  sweepDelay    : Duration
  fix1          : Int
  fix2          : Int
  defaultSpeedA : Byte
  defaultSpeedB : Byte
  kwTable       : KwTable
  dirLevels     : DirLevels
  kwRangeMode   : KwRangeMode
  vecBranches   : VecBranches
deriving DecidableEq, Repr

namespace Config

/-- FRAME_DELAY of the reset configuration: OPEN in R6, no value in any source (DESIGN CHOICE, log 5). -/
opaque openFrameDelay : Duration

/-- FIX1 of the reset configuration: OPEN in R6, no value in any source (DESIGN CHOICE, log 5). -/
opaque openFix1 : Int

/-- FIX2 of the reset configuration: OPEN in R6, no value in any source (DESIGN CHOICE, log 5). -/
opaque openFix2 : Int

/-- DEFAULT_SPEED_A of the reset configuration: OPEN in R6, 0 to 255, no value in any source (DESIGN CHOICE, log 5). -/
opaque openDefaultSpeedA : Byte

/-- DEFAULT_SPEED_B of the reset configuration: OPEN in R6, 0 to 255, no value in any source (DESIGN CHOICE, log 5). -/
opaque openDefaultSpeedB : Byte

/-- The environment's angle draws (R24, I13): the value of the `n`-th draw the environment has not fixed
ahead. A free value: nothing constrains it (DESIGN CHOICE, log 3). -/
opaque freeAngle : Nat → Byte

/-- Whether the request outstanding at a reset took effect in the sink (R171, I15). A free value: nothing
constrains it (DESIGN CHOICE, log 4). -/
opaque freeTook : Nat → Bool

end Config

/-- The default table of R104. -/
def KwTable.standard : KwTable where
  forward               := ⟨.goForward, .zero, .zero⟩
  backward              := ⟨.goBackward, .zero, .zero⟩
  turnLeft              := ⟨.goLeft, .fix1, .fix1⟩
  turnRight             := ⟨.goRight, .fix1, .fix1⟩
  diagonalForwardRight  := ⟨.goForward, .fix2, .zero⟩
  diagonalForwardLeft   := ⟨.goForward, .zero, .fix2⟩
  diagonalBackwardRight := ⟨.goBackward, .fix2, .zero⟩
  diagonalBackwardLeft  := ⟨.goBackward, .zero, .fix2⟩

/-- The default levels of R95. -/
def DirLevels.standard : DirLevels where
  forward  := ⟨true, true⟩
  backward := ⟨false, false⟩
  left     := ⟨false, true⟩
  right    := ⟨true, false⟩

/-- The document's configuration (R6): its values, its defaults where a parameter has one (STEP_DELAY and
SWEEP_DELAY default to FRAME_DELAY), and a constant with no value for each parameter that has neither. -/
def Config.document : Config where
  wordBits      := 20
  hexMaxLen     := 5
  posMin        := 20
  posMax        := 160
  frames        := 20
  pulseBase     := 600
  pulseScale    := 10
  stepDeg       := 10
  stopThreshold := 100
  speedMax      := 255
  frameDelay    := Config.openFrameDelay
  stepDelay     := Config.openFrameDelay
  sweepDelay    := Config.openFrameDelay
  fix1          := Config.openFix1
  fix2          := Config.openFix2
  defaultSpeedA := Config.openDefaultSpeedA
  defaultSpeedB := Config.openDefaultSpeedB
  kwTable       := KwTable.standard
  dirLevels     := DirLevels.standard
  kwRangeMode   := .reject
  vecBranches   := .chain

end Sys2Proof
end

