-- ==== Sys2Proof/Machine/State.lean ====
section
/-! DEFINITION. The machine's state (spec/10_state.md): the sequencer, its transient state, the observable trace,
responses and sink view, the configuration, and the environment's inputs; and the state at power-up. -/

namespace Sys2Proof.Machine

/-! ### Sink requests and events -/

/-- A request on the sink channel (R17): the kind, the identifier and the value. -/
inductive Request where
  | dir (l : Wheel) (level : Bool)
  | duty (c : Wheel) (v : Byte)
  | pulse (s : Servo) (us : Micros)
  | read (s : Servo)
  | sleep (d : Duration)
deriving DecidableEq, Repr

/-- A completed request (R11, R13): an entry of the trace. A READ carries the angle it returned. -/
inductive Event where
  | dir (l : Wheel) (level : Bool)
  | duty (c : Wheel) (v : Byte)
  | pulse (s : Servo) (us : Micros)
  | read (s : Servo) (angle : Byte)
  | sleep (d : Duration)
deriving DecidableEq, Repr

/-- The sink view (R25): the last value written to each actuator. Before the first write an entry holds no value,
which is the spec's own state. -/
structure SinkView where
  lineA  : Option Bool
  lineB  : Option Bool
  dutyA  : Option Byte
  dutyB  : Option Byte
  pulse1 : Option Micros
  pulse2 : Option Micros
deriving DecidableEq, Repr

/-- No entry written yet (R25, R31). -/
def SinkView.empty : SinkView := ⟨none, none, none, none, none, none⟩

/-! ### Responses -/

/-- The status codes that are ever produced (R151). -/
inductive Status where
  | ok
  | ignoredLength
  | ignoredNoChannel
  | ignoredKeyword
  | ignoredOpcode
  | ignoredChannel
  | rejectedRange
deriving DecidableEq, Repr

/-- The response record (R16, R150). -/
structure Response where
  status  : Status
  word    : CmdWord
  control : BitVec 4
  high    : Byte
  low     : Byte
deriving DecidableEq, Repr

/-! ### The sequencer -/

/-- One operation of a command's pseudocode that issues a sink request. The frame index and the sweep position of
R23 stand in the operations still to be done (DEDUCED, log 10). -/
inductive Op where
  /-- `SinkWrite(DIR, l, level)`. -/
  | dir (l : Wheel) (level : Bool)
  /-- `SinkWrite(DUTY, c, v)`. -/
  | duty (c : Wheel) (v : Byte)
  /-- The entry read of a servo word's channel (R123), after which the lane has its target and delta (R125, R126). -/
  | enter (s : Servo)
  /-- The write of channel `s` in frame `i` (R127). -/
  | ramp (s : Servo) (i : Nat)
  /-- The delay that ends frame `i` (R127). -/
  | frameSleep (i : Nat)
  /-- The read of the step variant (R141). -/
  | sense (s : Servo)
  /-- The write of the step variant (R140, R141). -/
  | nudge (s : Servo) (up : Bool)
  /-- The delay of the step variant (R141). -/
  | stepSleep
  /-- The write of sweep position `p` (R145). -/
  | sweep (s : Servo) (p : Nat)
  /-- The delay after sweep position `p` (R145). -/
  | sweepSleep (p : Nat)
deriving DecidableEq, Repr

/-- The registers of one servo lane (R23): the angle read, the clamped target and the per-frame delta. -/
structure Lane where
  cur   : Byte
  tgt   : Int
  delta : Int
deriving DecidableEq, Repr

/-- A lane at acceptance, before its entry read (R26: never read before it is written; DESIGN CHOICE, log 9). -/
def Lane.blank : Lane := ⟨0, 0, 0⟩

/-- The transient state of the command in flight (R23) beside the operations still to be done: the response decided
at acceptance (R158), whose word is R23's masked word `w` (DEDUCED, log 10), and the two lanes. -/
structure Transient where
  rsp   : Response
  lane1 : Lane
  lane2 : Lane
deriving DecidableEq, Repr

/-- The phase (R22) with what it holds. The transient state exists only while BUSY (R23). -/
inductive Seq where
  /-- IDLE: no command in flight. -/
  | idle
  /-- BUSY: the transient state, the operations not yet completed, and whether the first of them is a request
  outstanding at the sink (`snk_valid`). -/
  | busy (t : Transient) (todo : List Op) (issued : Bool)
  /-- RESP: the response offered and not yet taken. -/
  | resp (r : Response)
deriving DecidableEq, Repr

/-! ### The state -/

/-- Everything the machine holds. The fields from `rst` to `angles` are the environment's inputs (DESIGN CHOICE, log 1). -/
structure State where
  /-- The configuration (R21): no step writes it. -/
  cfg       : Config
  /-- The reset input (R19). -/
  rst       : Bool
  /-- The commands the host offers, the first on the command channel; `cmd_valid` is 0 when there is none (R15). -/
  offers    : List Command
  /-- `rsp_ready` (R16). -/
  rspReady  : Bool
  /-- How the sink completes requests (R18, R162): `none`, every one; `some n`, `n` more and then none. -/
  sinkGrant : Option Nat
  /-- `snk_angle` of the next READs, where the environment has fixed them ahead (R18, R24). -/
  angles    : List Byte
  /-- How many free values have been drawn: the argument of the next one (DESIGN CHOICE, logs 3 and 4). -/
  draws     : Nat
  /-- The sequencer (R22, R23). -/
  seq       : Seq
  /-- The descriptor and hex sequence sampled at acceptance (R15, R23), while a command is in flight. -/
  sampled   : Option Command
  /-- The completed sink events, oldest first (R11). -/
  trace     : List Event
  /-- The responses taken by the host, oldest first (R16). -/
  responses : List Response
  /-- The sink view (R25). -/
  view      : SinkView
deriving DecidableEq, Repr

/-- Why the machine stops. -/
inductive Fault where
  /-- Raised by `step` and by every meaning when the configuration is not legal by R7, "which the hardware never
  meets" (R156). Safe: nothing is claimed of such a machine (DEDUCED, log 6). -/
  | illegalConfiguration
deriving DecidableEq, Repr

/-- Why an instruction has no meaning. -/
inductive Refusal where
  /-- Raised by an arm of `exec` whose instruction has no meaning yet; no arm of this model raises it. Safe: nothing is
  claimed of such an instruction. -/
  | notModelled (mnemonic : String)
deriving DecidableEq, Repr

/-- The block at power-up with configuration `c` (R31, R173, R175): phase IDLE, `rst` just fallen, nothing issued, no
entry of the sink view written; the host offers nothing yet and takes responses at once, and the sink completes every
request (DESIGN CHOICE, log 12). -/
def State.powerUp (c : Config) : State where
  cfg       := c
  rst       := false
  offers    := []
  rspReady  := true
  sinkGrant := none
  angles    := []
  draws     := 0
  seq       := .idle
  sampled   := none
  trace     := []
  responses := []
  view      := .empty

/-- The machine right after reset, with the document's configuration (R6). -/
def State.reset : State := State.powerUp Config.document

end Sys2Proof.Machine
end

