-- ==== Sys2Proof/Machine/Operands.lean ====
section
/-! DEFINITION. Arithmetic (spec/00_scope.md R10), the legality of a configuration (R7), the word decoder's functions
(spec/40_command_word_decoder.md), and the operand forms of the drive and servo commands (spec/41, spec/42). -/

namespace Sys2Proof.Machine

/-! ### Arithmetic and configuration -/

/-- `trunc_div` of R10: the quotient rounded toward zero. -/
def truncDiv (a b : Int) : Int := Int.tdiv a b

/-- `clamp` of R10. -/
def clamp (v lo hi : Int) : Int := if v < lo then lo else if hi < v then hi else v

/-- `abs` of R10. -/
def absInt (v : Int) : Int := if 0 ≤ v then v else -v

/-- A configuration is legal (R7). The parameters are natural numbers, so R7's "at least 0" clauses hold of all. R7 does
not name WORD_BITS; the rules of the word agree with each other only for 20 (DEDUCED, log 19). -/
def configLegal (c : Config) : Bool :=
  decide (c.wordBits = 20 ∧ 1 ≤ c.frames ∧ c.posMin ≤ c.posMax ∧ c.posMax ≤ 180 ∧ c.speedMax ≤ 255 ∧
    c.pulseBase + 255 * c.pulseScale ≤ 65535)

/-! ### The command word (R63, R80) -/

/-- The masked word of an input value: its low WORD_BITS bits, `w = v & 0xFFFFF` with WORD_BITS 20. -/
def wordOf (c : Config) (v : Operand) : CmdWord := BitVec.ofNat 20 (v.toNat % 2 ^ c.wordBits)

/-- `byteLow`. -/
def wordLow (w : CmdWord) : Byte := w.extractLsb' 0 8

/-- `byteHigh`. -/
def wordHigh (w : CmdWord) : Byte := w.extractLsb' 8 8

/-- `control`. -/
def wordControl (w : CmdWord) : BitVec 4 := w.extractLsb' 16 4

/-! ### The hex form (R67 to R69, R82) -/

/-- `digit(c)` of R68, by ASCII code; every other code is 0. -/
def hexDigit (c : Byte) : Nat :=
  if 0x30 ≤ c.toNat ∧ c.toNat ≤ 0x39 then c.toNat - 0x30
  else if 0x41 ≤ c.toNat ∧ c.toNat ≤ 0x46 then c.toNat - 0x41 + 10
  else 0

/-- The loop of R82 over the characters, last one first: position `k`, value so far `v`. -/
def hexScan : List Byte → Nat → Nat → Nat
  | [], _, v => v
  | c :: cs, k, v => hexScan cs (k + 1) (v + hexDigit c * 16 ^ k)

/-- `parseHex` of R82. -/
def parseHex (c : Config) (h : HexSeq) : Option Nat :=
  if h.length = 0 ∨ c.hexMaxLen < h.length then none else some (hexScan h.reverse 0 0)

/-- A parse result as the operand of the matching raw command (R90). With HEX_MAX_LEN 5 it is below 2^20 (R69); of a longer
result the 32 bits keep all that the mask of R63 does (log 19). -/
def parsedOperand (value : Nat) : Operand := BitVec.ofNat 32 value

/-! ### Motor words and direction primitives (R64, R93 to R97) -/

/-- The level a motor word gives line A: bit 17. -/
def wordLineA (w : CmdWord) : Bool := w.getLsbD 17

/-- The level a motor word gives line B: bit 16. -/
def wordLineB (w : CmdWord) : Bool := w.getLsbD 16

/-- `DIR_LEVELS(p)` (R95). -/
def levelsOf (c : Config) : DirPrim → Levels
  | .goForward => c.dirLevels.forward
  | .goBackward => c.dirLevels.backward
  | .goLeft => c.dirLevels.left
  | .goRight => c.dirLevels.right

/-- The five primitives of R93, with the speeds they drive. -/
inductive Primitive where
  | go (p : DirPrim) (sA sB : Byte)
  | stop
deriving DecidableEq, Repr

/-- Two line levels and then two duties, wheel A first (R94, R97). -/
def driveOps (lA lB : Bool) (sA sB : Byte) : List Op := [.dir .a lA, .dir .b lB, .duty .a sA, .duty .b sB]

/-- `prim` of R94 and `stopPrim` of R96. -/
def primitiveOps (c : Config) : Primitive → List Op
  | .go p sA sB => driveOps (levelsOf c p).a (levelsOf c p).b sA sB
  | .stop => [.duty .a 0, .duty .b 0]

/-- `motorApply` of R97. -/
def motorOps (w : CmdWord) : List Op := driveOps (wordLineA w) (wordLineB w) (wordLow w) (wordHigh w)

/-! ### Keyword form (R103 to R105) -/

/-- The row of `KW_TABLE` for a keyword; `stop` has none. -/
def kwEntry (t : KwTable) : Keyword → Option KwEntry
  | .forward => some t.forward
  | .backward => some t.backward
  | .turnLeft => some t.turnLeft
  | .turnRight => some t.turnRight
  | .diagonalForwardRight => some t.diagonalForwardRight
  | .diagonalForwardLeft => some t.diagonalForwardLeft
  | .diagonalBackwardRight => some t.diagonalBackwardRight
  | .diagonalBackwardLeft => some t.diagonalBackwardLeft
  | .stop => none

/-- The integer an offset stands for. -/
def offsetValue (c : Config) : Offset → Int
  | .zero => 0
  | .fix1 => c.fix1
  | .fix2 => c.fix2
  | .value n => n

/-- The base pair of R103: the explicit speeds, or the default ones. -/
def baseSpeeds (c : Config) : Option SpeedPair → SpeedPair
  | some p => p
  | none => ⟨c.defaultSpeedA, c.defaultSpeedB⟩

/-- The adjusted speed of one wheel (R103), an integer. -/
def adjustedSpeed (c : Config) (base : Byte) (off : Offset) : Int := (base.toNat : Int) - offsetValue c off

/-- A speed the duty port can carry (R105). -/
def speedInRange (s : Int) : Bool := decide (0 ≤ s ∧ s ≤ 255)

/-- The primitive of a direction keyword with table row `e`, or nothing when R105 rejects it. -/
def keywordPrimitive (c : Config) (e : KwEntry) (speeds : Option SpeedPair) : Option Primitive :=
  let sA := adjustedSpeed c (baseSpeeds c speeds).a e.offA
  let sB := adjustedSpeed c (baseSpeeds c speeds).b e.offB
  if speedInRange sA && speedInRange sB then some (.go e.prim (BitVec.ofInt 8 sA) (BitVec.ofInt 8 sB))
  else
    match c.kwRangeMode with
    | .reject => none
    | .saturate => some (.go e.prim (BitVec.ofInt 8 (clamp sA 0 255)) (BitVec.ofInt 8 (clamp sB 0 255)))

/-! ### Vector form (R108 to R111) -/

/-- A component in the vector form's domain (R61, R111). -/
def componentInRange (c : Config) (a : Int) : Bool := decide (-(c.speedMax : Int) ≤ a ∧ a ≤ (c.speedMax : Int))

/-- A magnitude as a duty (R108). -/
def magnitude (a : Int) : Byte := BitVec.ofInt 8 (absInt a)

/-- The primitive of the vector form, with both components' magnitudes. -/
def vecGo (p : DirPrim) (a b : Int) : Primitive := .go p (magnitude a) (magnitude b)

/-- `vecPrims_chain` of R108: the first matching case alone. Every pair matches one of the four. -/
def vecChain (a b : Int) : List Primitive :=
  if 0 ≤ a ∧ 0 ≤ b then [vecGo .goForward a b]
  else if a ≤ 0 ∧ b ≤ 0 then [vecGo .goBackward a b]
  else if a ≤ 0 ∧ 0 ≤ b then [vecGo .goLeft a b]
  else if 0 ≤ a ∧ b ≤ 0 then [vecGo .goRight a b]
  else []

/-- `vecPrims_indep` of R109: every matching case, in order. -/
def vecIndependent (a b : Int) : List Primitive :=
  (if 0 ≤ a ∧ 0 ≤ b then [vecGo .goForward a b] else []) ++
  (if a ≤ 0 ∧ b ≤ 0 then [vecGo .goBackward a b] else []) ++
  (if a ≤ 0 ∧ 0 ≤ b then [vecGo .goLeft a b] else []) ++
  (if 0 ≤ a ∧ b ≤ 0 then [vecGo .goRight a b] else [])

/-- The direction primitives of a vector under the configuration's `VEC_BRANCHES`. -/
def vecPrimitives (c : Config) (a b : Int) : List Primitive :=
  match c.vecBranches with
  | .chain => vecChain a b
  | .independent => vecIndependent a b

/-- The stop override fires (R110). -/
def vecStops (c : Config) (a b : Int) : Bool :=
  decide (absInt a ≤ (c.stopThreshold : Int) ∧ absInt b ≤ (c.stopThreshold : Int))

/-- All the primitives of a vector: the direction cases, then the stop override (R110, R111). -/
def vectorPrimitives (c : Config) (a b : Int) : List Primitive :=
  vecPrimitives c a b ++ (if vecStops c a b then [.stop] else [])

/-! ### Servo words (R65, R121 to R127) -/

/-- Channel 1 is active: bit 16 (R122). -/
def wordAct1 (w : CmdWord) : Bool := w.getLsbD 16

/-- Channel 2 is active: bit 17 (R122). -/
def wordAct2 (w : CmdWord) : Bool := w.getLsbD 17

/-- The target byte of a channel: target1 is byteLow, target2 byteHigh (R65). -/
def targetByte (w : CmdWord) : Servo → Byte
  | .one => wordLow w
  | .two => wordHigh w

/-- `posPulse` of R121. -/
def posPulse (c : Config) (p : Int) : Int := (c.pulseBase : Int) + (c.pulseScale : Int) * p

/-- A pulse width on the 16-bit port; R133 shows that a legal configuration's pulses fit it. -/
def pulseBits (us : Int) : Micros := BitVec.ofInt 16 us

/-- The clamped target of R126. -/
def clampTarget (c : Config) (t : Byte) : Int := clamp (t.toNat : Int) c.posMin c.posMax

/-- The per-frame delta of R125. -/
def frameDelta (c : Config) (tgt : Int) (cur : Byte) : Int :=
  truncDiv ((c.pulseScale : Int) * (tgt - (cur.toNat : Int))) (c.frames : Int)

/-- A lane after its entry read of `a` (R123, R125, R126). -/
def laneEntered (c : Config) (t a : Byte) : Lane := ⟨a, clampTarget c t, frameDelta c (clampTarget c t) a⟩

/-- The pulse of frame `i` (R127). -/
def rampPulse (c : Config) (l : Lane) (i : Nat) : Int :=
  (c.pulseBase : Int) + (c.pulseScale : Int) * (l.cur.toNat : Int) + (i : Int) * l.delta

/-- One item if a flag is set. -/
def whenSet (flag : Bool) (op : Op) : List Op := if flag then [op] else []

/-- `frame(i)` of R127. -/
def frameOps (act1 act2 : Bool) (i : Nat) : List Op :=
  whenSet act1 (.ramp .one i) ++ whenSet act2 (.ramp .two i) ++ [.frameSleep i]

/-- The operations of a servo word with an active channel (R123, R127): the entry reads, then frames 0 to F. -/
def servoOps (c : Config) (w : CmdWord) : List Op :=
  whenSet (wordAct1 w) (.enter .one) ++ whenSet (wordAct2 w) (.enter .two) ++
    (List.range (c.frames + 1)).flatMap (frameOps (wordAct1 w) (wordAct2 w))

/-! ### Step and sweep (R140 to R145) -/

/-- The step position of R140. -/
def stepPosition (c : Config) (up : Bool) (cur : Byte) : Int :=
  clamp ((cur.toNat : Int) + (if up then (c.stepDeg : Int) else -(c.stepDeg : Int))) c.posMin c.posMax

/-- The operations of SERVO_STEP (R141). -/
def stepOps (s : Servo) (up : Bool) : List Op := [.sense s, .nudge s up, .stepSleep]

/-- The sweep positions of R143: POS_MIN up to POS_MAX, or POS_MAX down to POS_MIN. -/
def sweepPositions (c : Config) (up : Bool) : List Nat :=
  (List.range (c.posMax - c.posMin + 1)).map fun k => if up then c.posMin + k else c.posMax - k

/-- The operations of SERVO_SWEEP (R145). -/
def sweepOps (c : Config) (s : Servo) (up : Bool) : List Op :=
  (sweepPositions c up).flatMap fun p => [.sweep s p, .sweepSleep p]

end Sys2Proof.Machine
end

