-- ==== Sys2Proof/Machine/Flags.lean ====
section
/-! DEFINITION. The block has no flags (spec/10_state.md R28): "the only condition the block reports is the status
field of the response". This file computes that response (spec/60_exceptions.md R150, R151). -/

namespace Sys2Proof.Machine

/-- The 4-bit status code (R151). -/
def statusCode : Status → BitVec 4
  | .ok => 0x0
  | .ignoredLength => 0x1
  | .ignoredNoChannel => 0x2
  | .ignoredKeyword => 0x3
  | .ignoredOpcode => 0x4
  | .ignoredChannel => 0x5
  | .rejectedRange => 0x6

/-- A response that carries a masked word and its fields (R150). -/
def wordResponse (st : Status) (w : CmdWord) : Response := ⟨st, w, wordControl w, wordHigh w, wordLow w⟩

/-- A response whose word and fields are all 0 (R150). -/
def plainResponse (st : Status) : Response := ⟨st, 0, 0, 0, 0⟩

end Sys2Proof.Machine
end

