-- ==== Sys2Proof/Machine/Ops.lean ====
section
/-! DEFINITION. The named operations of the sequencer: sink requests and their completion (spec/10_state.md R16 to R18,
R24, R25), running a command's operations, accepting a command (R15, R22), waiting, reset (spec/70 R170, R171), and the
port views. The block takes no exception and returns from none (spec/60_exceptions.md R156, R159); its one asynchronous
input is `rst`, and `State.clearByReset` is its effect. -/

namespace Sys2Proof.Machine

/-! ### The transient state -/

/-- The transient state at acceptance, the response already decided (R158). -/
def Transient.start (r : Response) : Transient := ⟨r, .blank, .blank⟩

/-- Flag `act1` of R23: bit 16 of the masked word. -/
def Transient.act1 (t : Transient) : Bool := wordAct1 t.rsp.word

/-- Flag `act2` of R23: bit 17 of the masked word. -/
def Transient.act2 (t : Transient) : Bool := wordAct2 t.rsp.word

/-- The lane of a channel. -/
def Transient.lane (t : Transient) : Servo → Lane
  | .one => t.lane1
  | .two => t.lane2

/-- Write the lane of a channel. -/
def Transient.setLane (t : Transient) (s : Servo) (l : Lane) : Transient :=
  match s with
  | .one => { t with lane1 := l }
  | .two => { t with lane2 := l }

/-! ### Requests, events and the sink view -/

/-- The request an operation issues (R17), from the transient state. -/
def Op.request (c : Config) (t : Transient) : Op → Request
  | .dir l level => .dir l level
  | .duty w v => .duty w v
  | .enter s => .read s
  | .ramp s i => .pulse s (pulseBits (rampPulse c (t.lane s) i))
  | .frameSleep _ => .sleep c.frameDelay
  | .sense s => .read s
  | .nudge s up => .pulse s (pulseBits (posPulse c (stepPosition c up (t.lane s).cur)))
  | .stepSleep => .sleep c.stepDelay
  | .sweep s p => .pulse s (pulseBits (posPulse c (p : Int)))
  | .sweepSleep _ => .sleep c.sweepDelay

/-- The transient state after an operation completes with angle `a`; only the reads change it (R123, R125, R126, R141). -/
def Op.commit (c : Config) (a : Byte) (t : Transient) : Op → Transient
  | .enter s => t.setLane s (laneEntered c (targetByte t.rsp.word s) a)
  | .sense s => t.setLane s { t.lane s with cur := a }
  | .dir _ _ => t
  | .duty _ _ => t
  | .ramp _ _ => t
  | .frameSleep _ => t
  | .nudge _ _ => t
  | .stepSleep => t
  | .sweep _ _ => t
  | .sweepSleep _ => t

/-- The event of a request completed, with the angle for a READ (R18). -/
def Request.event (a : Byte) : Request → Event
  | .dir l level => .dir l level
  | .duty c v => .duty c v
  | .pulse s us => .pulse s us
  | .read s => .read s a
  | .sleep d => .sleep d

/-- The request writes an actuator (R49: READ and SLEEP have no effect on the sink). -/
def Request.isWrite : Request → Bool
  | .dir _ _ => true
  | .duty _ _ => true
  | .pulse _ _ => true
  | .read _ => false
  | .sleep _ => false

/-- The event took an angle from the sink. -/
def Event.isRead : Event → Bool
  | .read _ _ => true
  | .dir _ _ => false
  | .duty _ _ => false
  | .pulse _ _ => false
  | .sleep _ => false

/-- The sink view after an event (R25). -/
def SinkView.after (v : SinkView) : Event → SinkView
  | .dir .a level => { v with lineA := some level }
  | .dir .b level => { v with lineB := some level }
  | .duty .a d => { v with dutyA := some d }
  | .duty .b d => { v with dutyB := some d }
  | .pulse .one us => { v with pulse1 := some us }
  | .pulse .two us => { v with pulse2 := some us }
  | .read _ _ => v
  | .sleep _ => v

/-! ### Updates of the state -/

/-- The sequencer moves. -/
def State.setSeq (s : State) (q : Seq) : State := { s with seq := q }

/-- An event enters the trace and the sink view (R11, R25). -/
def State.record (s : State) (e : Event) : State := { s with trace := s.trace ++ [e], view := s.view.after e }

/-- The angle the next READ returns (R24): the one the environment fixed, or a free draw (DESIGN CHOICE, log 3). -/
def State.nextAngle (s : State) : Byte :=
  match s.angles with
  | a :: _ => a
  | [] => Config.freeAngle s.draws

/-- The angle of a READ is used up. -/
def State.takeAngle (s : State) : State :=
  match s.angles with
  | _ :: rest => { s with angles := rest }
  | [] => { s with draws := s.draws + 1 }

/-- The sink has completed one request more. -/
def State.useGrant (s : State) : State := { s with sinkGrant := s.sinkGrant.map (· - 1) }

/-- The sink completes no request now (R18, D36). -/
def State.stalled (s : State) : Bool := s.sinkGrant == some 0

/-- The sink completes a request, and event `e` is what it did. -/
def State.completed (s : State) (e : Event) : State :=
  ((if e.isRead then s.takeAngle else s).record e).useGrant

/-- Carry out the operations `todo` one at a time (R46), the transient state being `t`. Each request completes before
the next is issued. With none left the response is offered (R22). Where the sink completes no more, the block stays
BUSY at the operation reached. -/
def State.perform : List Op → Transient → State → State
  | [], t, s => s.setSeq (.resp t.rsp)
  | op :: rest, t, s =>
    if s.stalled then s.setSeq (.busy t (op :: rest) false)
    else perform rest (op.commit s.cfg s.nextAngle t) (s.completed ((op.request s.cfg t).event s.nextAngle))

/-! ### Port views (R15 to R17, R170) -/

/-- `cmd_ready`: "1 exactly when the sequencer is in phase IDLE and `rst = 0`" (R15). -/
def State.cmdReady (s : State) : Bool := s.seq == .idle && !s.rst

/-- `cmd_valid`: the host offers a command (R15). -/
def State.cmdValid (s : State) : Bool := !s.offers.isEmpty

/-- The response record on the response channel, if one is offered (R16); none while `rst = 1` (R170). -/
def State.rspRecord (s : State) : Option Response :=
  match s.seq with
  | .resp r => if s.rst then none else some r
  | .idle => none
  | .busy _ _ _ => none

/-- `rsp_valid` (R16). -/
def State.rspValid (s : State) : Bool := s.rspRecord.isSome

/-- The request outstanding at the sink, if there is one (R17); none while `rst = 1` (R170). -/
def State.snkRequest (s : State) : Option Request :=
  match s.seq with
  | .busy t (op :: _) true => if s.rst then none else some (op.request s.cfg t)
  | .busy _ _ _ => none
  | .idle => none
  | .resp _ => none

/-- `snk_valid` (R17). -/
def State.snkValid (s : State) : Bool := s.snkRequest.isSome

/-- The frame index `i` of R23 while a ramp is under way: the index of the operation reached. -/
def Seq.frameIndex : Seq → Option Nat
  | .busy _ (.ramp _ i :: _) _ => some i
  | .busy _ (.frameSleep i :: _) _ => some i
  | _ => none

/-- The sweep position `p` of R23 while a sweep is under way: the position of the operation reached. -/
def Seq.sweepPosition : Seq → Option Nat
  | .busy _ (.sweep _ p :: _) _ => some p
  | .busy _ (.sweepSleep p :: _) _ => some p
  | _ => none

/-! ### Accepting, going on, answering, reset -/

/-- Accept a command whose response `r` and operations `todo` are decided (R22, R158), and carry it out as far as the
sink lets it. A command that meets `cmd_ready = 0` waits (R180; DEDUCED, log 15). -/
def State.accept (s : State) (r : Response) (todo : List Op) : Host.Outcome State Fault Refusal :=
  if configLegal s.cfg then
    if s.cmdReady then .next (s.perform todo (.start r)) else .next s
  else .fault .illegalConfiguration

/-- The command channel's handshake (R15): the offer is taken and sampled. -/
def State.sample (s : State) (c : Command) (rest : List Command) : State :=
  { s with offers := rest, sampled := some c }

/-- A command in flight goes on (R18): as far as the sink lets it, or else its next request is issued and held. -/
def State.goOn (s : State) (t : Transient) (todo : List Op) : State :=
  if s.stalled && !todo.isEmpty then s.setSeq (.busy t todo true) else s.perform todo t

/-- The response channel's handshake (R16): the host takes `r` and the block is IDLE with nothing transient left. -/
def State.answer (s : State) (r : Response) : State :=
  { s with responses := s.responses ++ [r], seq := .idle, sampled := none }

/-- The request outstanding, whatever `rst` is: what R171 says may or may not have taken effect. -/
def State.outstanding (s : State) : Option Request :=
  match s.seq with
  | .busy t (op :: _) true => some (op.request s.cfg t)
  | _ => none

/-- A write outstanding at a reset may or may not have taken effect in the sink (R171, I15): a free value decides
(DESIGN CHOICE, log 4). A READ or SLEEP has no effect to take (R49). -/
def State.settleOutstanding (s : State) : State :=
  match s.outstanding with
  | none => s
  | some r =>
    if r.isWrite then
      if Config.freeTook s.draws then { s.record (r.event 0) with draws := s.draws + 1 }
      else { s with draws := s.draws + 1 }
    else s

/-- The effect of `rst = 1` (R170): the command in flight is abandoned without a response, nothing is issued, and the
block is IDLE with no transient state. -/
def State.clearByReset (s : State) : State :=
  { s.settleOutstanding with seq := .idle, sampled := none }

end Sys2Proof.Machine
end

