-- ==== Sys2Proof/Machine/MotorDrive.lean ====
section
/-! DEFINITION. motor_drive_dispatcher: the meanings of MOTOR_RAW, MOTOR_HEX, DRIVE_KW and DRIVE_VEC
(spec/41_motor_drive_dispatcher.md). -/

namespace Sys2Proof.Machine

/-- A raw motor word given as an input value (R97, R99). -/
def runMotorWord (v : Operand) (s : State) : Host.Outcome State Fault Refusal :=
  s.accept (wordResponse .ok (wordOf s.cfg v)) (motorOps (wordOf s.cfg v))

/-- MOTOR_RAW (R99). -/
def execMotorRaw (v : Operand) (s : State) : Host.Outcome State Fault Refusal := runMotorWord v s

/-- MOTOR_HEX (R101): as MOTOR_RAW with the parsed value (R90), or IGNORED_LENGTH and no event. -/
def execMotorHex (c : HexSeq) (s : State) : Host.Outcome State Fault Refusal :=
  match parseHex s.cfg c with
  | none => s.accept (plainResponse .ignoredLength) []
  | some value => runMotorWord (parsedOperand value) s

/-- What a keyword does (R106): its status and its primitive. The checks stand in R153's order: the code, then `stop`,
which is OK with no range check, then the range of the adjusted speeds. -/
def keywordPlan (c : Config) (k : KwCode) (speeds : Option SpeedPair) : Status × List Primitive :=
  match k with
  | .unrecognized _ => (.ignoredKeyword, [])
  | .known kw =>
    match kwEntry c.kwTable kw with
    | none => (.ok, [.stop])
    | some e =>
      match keywordPrimitive c e speeds with
      | none => (.rejectedRange, [])
      | some p => (.ok, [p])

/-- DRIVE_KW (R106). -/
def execDriveKw (k : KwCode) (speeds : Option SpeedPair) (s : State) : Host.Outcome State Fault Refusal :=
  s.accept (plainResponse (keywordPlan s.cfg k speeds).1)
    ((keywordPlan s.cfg k speeds).2.flatMap (primitiveOps s.cfg))

/-- DRIVE_VEC (R111): the direction cases and the stop override, or REJECTED_RANGE and no event. -/
def execDriveVec (a b : Int) (s : State) : Host.Outcome State Fault Refusal :=
  if componentInRange s.cfg a && componentInRange s.cfg b then
    s.accept (plainResponse .ok) ((vectorPrimitives s.cfg a b).flatMap (primitiveOps s.cfg))
  else s.accept (plainResponse .rejectedRange) []

end Sys2Proof.Machine
end

