-- ==== Sys2Proof/Machine/Reserved.lean ====
section
/-! DEFINITION. The reserved operations 0x0 and 0xB to 0xF (spec/60_exceptions.md R154): no sink event, and the response
IGNORED_OPCODE with zero fields. -/

namespace Sys2Proof.Machine

/-- What every reserved operation does (R154). -/
def ignoreOpcode (s : State) : Host.Outcome State Fault Refusal := s.accept (plainResponse .ignoredOpcode) []

/-- Operation 0x0. -/
def execReserved0 (s : State) : Host.Outcome State Fault Refusal := ignoreOpcode s

/-- Operation 0xB. -/
def execReservedB (s : State) : Host.Outcome State Fault Refusal := ignoreOpcode s

/-- Operation 0xC. -/
def execReservedC (s : State) : Host.Outcome State Fault Refusal := ignoreOpcode s

/-- Operation 0xD. -/
def execReservedD (s : State) : Host.Outcome State Fault Refusal := ignoreOpcode s

/-- Operation 0xE. -/
def execReservedE (s : State) : Host.Outcome State Fault Refusal := ignoreOpcode s

/-- Operation 0xF. -/
def execReservedF (s : State) : Host.Outcome State Fault Refusal := ignoreOpcode s

end Sys2Proof.Machine
end

