-- ==== Sys2Proof/Machine/ServoMotion.lean ====
section
/-! DEFINITION. The servo interpolator: the meanings of SERVO_RAW, SERVO_HEX, SERVO_STEP and SERVO_SWEEP
(spec/42_servo_linear_interpolator.md). -/

namespace Sys2Proof.Machine

/-- A servo word given as an input value (R122, R128): a no-op when no channel is active, else the entry reads and the
frames. Both responses carry the word. -/
def runServoWord (v : Operand) (s : State) : Host.Outcome State Fault Refusal :=
  if wordAct1 (wordOf s.cfg v) || wordAct2 (wordOf s.cfg v) then
    s.accept (wordResponse .ok (wordOf s.cfg v)) (servoOps s.cfg (wordOf s.cfg v))
  else s.accept (wordResponse .ignoredNoChannel (wordOf s.cfg v)) []

/-- SERVO_RAW (R128). -/
def execServoRaw (v : Operand) (s : State) : Host.Outcome State Fault Refusal := runServoWord v s

/-- SERVO_HEX (R138): as SERVO_RAW with the parsed value, or IGNORED_LENGTH and no event. -/
def execServoHex (c : HexSeq) (s : State) : Host.Outcome State Fault Refusal :=
  match parseHex s.cfg c with
  | none => s.accept (plainResponse .ignoredLength) []
  | some value => runServoWord (parsedOperand value) s

/-- SERVO_STEP (R141). -/
def execServoStep (ch : ChannelSel) (up : Bool) (s : State) : Host.Outcome State Fault Refusal :=
  match ch with
  | .noChannel _ => s.accept (plainResponse .ignoredChannel) []
  | .channel c => s.accept (plainResponse .ok) (stepOps c up)

/-- SERVO_SWEEP (R145). -/
def execServoSweep (ch : ChannelSel) (up : Bool) (s : State) : Host.Outcome State Fault Refusal :=
  match ch with
  | .noChannel _ => s.accept (plainResponse .ignoredChannel) []
  | .channel c => s.accept (plainResponse .ok) (sweepOps s.cfg c up)

end Sys2Proof.Machine
end

