-- ==== Sys2Proof/Machine/WordDecoder.lean ====
section
/-! DEFINITION. command_word_decoder: the meanings of DECODE and PARSEHEX (spec/40_command_word_decoder.md). -/

namespace Sys2Proof.Machine

/-- DECODE (R84): the masked word and its fields, always OK, no sink event. -/
def execDecode (v : Operand) (s : State) : Host.Outcome State Fault Refusal :=
  s.accept (wordResponse .ok (wordOf s.cfg v)) []

/-- PARSEHEX (R88): the parsed word and its fields, or IGNORED_LENGTH with zero fields (R86); no sink event. -/
def execParseHex (c : HexSeq) (s : State) : Host.Outcome State Fault Refusal :=
  match parseHex s.cfg c with
  | none => s.accept (plainResponse .ignoredLength) []
  | some value => s.accept (wordResponse .ok (wordOf s.cfg (parsedOperand value))) []

end Sys2Proof.Machine
end

