-- ==== Sys2Proof/Machine/Dispatch.lean ====
section
/-! DEFINITION. One arm per command (spec/30_encoding.md R56). -/

namespace Sys2Proof.Machine

def exec (i : Instr) (s : State) : Host.Outcome State Fault Refusal :=
  match i with
  | .decode v => Sys2Proof.Machine.execDecode v s
  | .parseHex c => Sys2Proof.Machine.execParseHex c s
  | .motorRaw v => Sys2Proof.Machine.execMotorRaw v s
  | .motorHex c => Sys2Proof.Machine.execMotorHex c s
  | .driveKw k speeds => Sys2Proof.Machine.execDriveKw k speeds s
  | .driveVec a b => Sys2Proof.Machine.execDriveVec a b s
  | .servoRaw v => Sys2Proof.Machine.execServoRaw v s
  | .servoHex c => Sys2Proof.Machine.execServoHex c s
  | .servoStep ch up => Sys2Proof.Machine.execServoStep ch up s
  | .servoSweep ch up => Sys2Proof.Machine.execServoSweep ch up s
  | .reserved0 => Sys2Proof.Machine.execReserved0 s
  | .reservedB => Sys2Proof.Machine.execReservedB s
  | .reservedC => Sys2Proof.Machine.execReservedC s
  | .reservedD => Sys2Proof.Machine.execReservedD s
  | .reservedE => Sys2Proof.Machine.execReservedE s
  | .reservedF => Sys2Proof.Machine.execReservedF s

end Sys2Proof.Machine
end

