-- ==== Sys2Proof/Machine/Step.lean ====
section
/-! DEFINITION. One step of the block (spec/10_state.md R22, spec/70_reset_and_hazards.md R170): reset first, else what
the phase says. A step runs until the block has to wait for its environment (DESIGN CHOICE, log 2); a block that waits stays as it is
(DESIGN CHOICE, log 7). -/

namespace Sys2Proof.Machine

/-- One step. -/
def step (s : State) : Host.Outcome State Fault Refusal :=
  if configLegal s.cfg then
    if s.rst then .next s.clearByReset
    else
      match s.seq with
      | .idle =>
        match s.offers with
        | [] => .next s
        | c :: rest => exec c.instr (s.sample c rest)
      | .busy t todo _ => .next (s.goOn t todo)
      | .resp r => if s.rspReady then .next (s.answer r) else .next s
  else .fault .illegalConfiguration

/-- The host offers the instruction whose bits are `w` (numbered as spec/opcode_table.json numbers them, bits above
`nbits` zero, hex sequence empty) to a block that is ready for it, before whatever it offers already: the very next step
accepts and runs it (DESIGN CHOICE, log 13). -/
def State.withFetchWord (s : State) (nbits w : Nat) : State :=
  { s with
    rst := false
    seq := .idle
    sampled := none
    offers := .ofDesc (BitVec.ofNat 64 (w % 2 ^ nbits)) :: s.offers }

end Sys2Proof.Machine
end

