-- ==== Sys2Proof/Machine/Assembly.lean ====
section
/-! DEFINITION. The assembly text a host writes commands in (spec/30_encoding.md R74, R75), down to the descriptor and
hex sequence it offers. The block never sees this text; nothing in the step uses this file. -/

namespace Sys2Proof

/-! ### Text to operands -/

/-- A piece of a line: bare text, a quoted string as its bytes, or a comma. -/
inductive Lexeme where
  | bare (text : List Char)
  | quoted (bytes : HexSeq)
  | comma
deriving DecidableEq, Repr

/-- The byte of a character of a string: its code, where that is a byte (DESIGN CHOICE, log 16). -/
def charByte (c : Char) : Option Byte := if c.toNat < 256 then some (BitVec.ofNat 8 c.toNat) else none

/-- Bare text read so far, last character first, as a lexeme before those that follow. -/
def flushBare (cur : List Char) (rest : List Lexeme) : List Lexeme :=
  if cur.isEmpty then rest else .bare cur.reverse :: rest

/-- The lexemes of a line, outside a string: `cur` is the bare text read so far, `quoted` the string being read. A
comment runs from `;` to the end of the line (R74), but a `;` inside a string is a character of the string, which R74
leaves open (DESIGN CHOICE, log 16). -/
def lexLine : List Char → List Char → Option HexSeq → Option (List Lexeme)
  | [], cur, none => some (flushBare cur [])
  | [], _, some _ => none
  | c :: cs, cur, some bytes =>
    if c = '"' then (lexLine cs [] none).map (.quoted bytes.reverse :: ·)
    else
      match charByte c with
      | none => none
      | some b => lexLine cs cur (some (b :: bytes))
  | c :: cs, cur, none =>
    if c = ';' then some (flushBare cur [])
    else if c = ',' then (lexLine cs [] none).map fun rest => flushBare cur (.comma :: rest)
    else if c = '"' then (lexLine cs [] (some [])).map (flushBare cur)
    else if c.isWhitespace then (lexLine cs [] none).map (flushBare cur)
    else lexLine cs (c :: cur) none

/-- The value of a digit in a number of the text, up to base 16. -/
def textDigit (c : Char) : Option Nat :=
  if '0' ≤ c ∧ c ≤ '9' then some (c.toNat - 48)
  else if 'A' ≤ c ∧ c ≤ 'F' then some (c.toNat - 55)
  else if 'a' ≤ c ∧ c ≤ 'f' then some (c.toNat - 87)
  else none

/-- The digits of a number in base `base`, most significant first, after the value `v` read so far. -/
def digitsValue (base : Nat) : Nat → List Char → Option Nat
  | v, [] => some v
  | v, c :: cs =>
    match textDigit c with
    | none => none
    | some d => if d < base then digitsValue base (v * base + d) cs else none

/-- A number without a sign: "decimal or `0x` hex" (R74). -/
def natural : List Char → Option Nat
  | [] => none
  | ['0', 'x'] => none
  | '0' :: 'x' :: ds => digitsValue 16 0 ds
  | ds => digitsValue 10 0 ds

/-- A number with or without a minus sign. -/
def integer : List Char → Option Int
  | '-' :: ds => (natural ds).map fun n => -(n : Int)
  | ds => (natural ds).map fun n => (n : Int)

/-- A number below a bound, as every field must be "in its range" (R73). -/
def below (bound : Nat) (ds : List Char) : Option Nat := (natural ds).bind fun n => if n < bound then some n else none

/-- An operand of 32 bits. -/
def operandText (ds : List Char) : Option Operand := (below (2 ^ 32) ds).map (BitVec.ofNat 32)

/-- A speed or a target byte. -/
def byteText (ds : List Char) : Option Byte := (below 256 ds).map (BitVec.ofNat 8)

/-- A line level, 0 or 1. -/
def levelText (ds : List Char) : Option Bool := (below 2 ds).map (· == 1)

/-- A channel code, 0 to 3. -/
def channelText (ds : List Char) : Option (BitVec 2) := (below 4 ds).map (BitVec.ofNat 2)

/-- `up` or `down`: the `dir` field. -/
def directionText (ds : List Char) : Option Bool :=
  if ds = "up".toList then some true else if ds = "down".toList then some false else none

/-- A vector component: what 16 bits of two's complement encode (R61). -/
def componentText (ds : List Char) : Option Int :=
  (integer ds).bind fun a => if -32768 ≤ a ∧ a ≤ 32767 then some a else none

/-- A keyword: one of the nine names, or `kw` and a raw code 0 to 15 (R74). -/
def keywordText (ds : List Char) : Option (BitVec 4) :=
  match ds with
  | 'k' :: 'w' :: code => (below 16 code).map (BitVec.ofNat 4)
  | _ =>
    if ds = "forward".toList then some Keyword.forward.code
    else if ds = "backward".toList then some Keyword.backward.code
    else if ds = "turnLeft".toList then some Keyword.turnLeft.code
    else if ds = "turnRight".toList then some Keyword.turnRight.code
    else if ds = "diagonalForwardRight".toList then some Keyword.diagonalForwardRight.code
    else if ds = "diagonalForwardLeft".toList then some Keyword.diagonalForwardLeft.code
    else if ds = "diagonalBackwardRight".toList then some Keyword.diagonalBackwardRight.code
    else if ds = "diagonalBackwardLeft".toList then some Keyword.diagonalBackwardLeft.code
    else if ds = "stop".toList then some Keyword.stop.code
    else none

/-! ### The two tables -/

/-- The operands of a line. -/
inductive TextArgs where
  | bare (args : List (List Char))
  | quoted (bytes : HexSeq)
deriving DecidableEq, Repr

/-- Bare operands with a comma between each two. -/
def bareArgs : List Lexeme → Option (List (List Char))
  | [] => some []
  | [.bare a] => some [a]
  | .bare a :: .comma :: rest =>
    match bareArgs rest with
    | some (b :: more) => some (a :: b :: more)
    | _ => none
  | _ => none

/-- The operands after a mnemonic: one string, or bare operands. -/
def textArgs : List Lexeme → Option TextArgs
  | [.quoted s] => some (.quoted s)
  | ls => (bareArgs ls).map .bare

/-- A row of R74 whose operand is a 32-bit input value. -/
def wordRow (op : BitVec 4) : TextArgs → Option Command
  | .bare [v] => (operandText v).map fun x => .ofDesc (assemble op 0 false false 0 x)
  | _ => none

/-- A row of R74 whose operand is a hex sequence. -/
def hexRow (op : BitVec 4) : TextArgs → Option Command
  | .quoted s => some ⟨assemble op 0 false false 0 0, s⟩
  | .bare _ => none

/-- The two rows of DRIVE_KW. -/
def keywordRow : TextArgs → Option Command
  | .bare [k] => (keywordText k).map fun kw => .ofDesc (assemble 0x5 kw false false 0 0)
  | .bare [k, sA, sB] =>
    (keywordText k).bind fun kw => (byteText sA).bind fun a => (byteText sB).map fun b =>
      .ofDesc (assemble 0x5 kw true false 0 (speedOperand ⟨a, b⟩))
  | _ => none

/-- The row of DRIVE_VEC. -/
def vectorRow : TextArgs → Option Command
  | .bare [a, b] => (componentText a).bind fun x => (componentText b).map fun y =>
      .ofDesc (assemble 0x6 0 false false 0 (vectorOperand x y))
  | _ => none

/-- The rows of SERVO_STEP and SERVO_SWEEP. -/
def channelRow (op : BitVec 4) : TextArgs → Option Command
  | .bare [c, d] => (channelText c).bind fun ch => (directionText d).map fun dir =>
      .ofDesc (assemble op 0 false dir ch 0)
  | _ => none

/-- The row of RESERVED: one of the reserved codes, 0 and 11 to 15 (DESIGN CHOICE, log 16). -/
def reservedRow : TextArgs → Option Command
  | .bare [o] => (below 16 o).bind fun n =>
      if n = 0 ∨ 11 ≤ n then some (.ofDesc (assemble (BitVec.ofNat 4 n) 0 false false 0 0)) else none
  | _ => none

/-- The pseudo-commands (R75). -/
def pseudoRow (m : List Char) : TextArgs → Option Command
  | .bare [] =>
    if m = "STOP".toList then some (encode pseudoStop)
    else if m = "ALL_OFF".toList then some (encode pseudoAllOff)
    else none
  | .bare [t] =>
    if m = "SERVO1_MOVE".toList then (byteText t).map fun x => encode (pseudoServo1Move x)
    else if m = "SERVO2_MOVE".toList then (byteText t).map fun x => encode (pseudoServo2Move x)
    else none
  | .bare [t1, t2] =>
    if m = "SERVO_MOVE".toList then (byteText t1).bind fun x => (byteText t2).map fun y => encode (pseudoServoMove x y)
    else none
  | .bare [lA, lB, sA, sB] =>
    if m = "MOTOR_SET".toList then
      (levelText lA).bind fun x => (levelText lB).bind fun y => (byteText sA).bind fun p => (byteText sB).map fun q =>
        encode (pseudoMotorSet x y p q)
    else none
  | _ => none

/-- A statement: its mnemonic and operands (R74, R75). -/
def statement (m : List Char) (args : TextArgs) : Option Command :=
  if m = "DECODE".toList then wordRow 0x1 args
  else if m = "PARSEHEX".toList then hexRow 0x2 args
  else if m = "MOTOR_RAW".toList then wordRow 0x3 args
  else if m = "MOTOR_HEX".toList then hexRow 0x4 args
  else if m = "DRIVE_KW".toList then keywordRow args
  else if m = "DRIVE_VEC".toList then vectorRow args
  else if m = "SERVO_RAW".toList then wordRow 0x7 args
  else if m = "SERVO_HEX".toList then hexRow 0x8 args
  else if m = "SERVO_STEP".toList then channelRow 0x9 args
  else if m = "SERVO_SWEEP".toList then channelRow 0xA args
  else if m = "RESERVED".toList then reservedRow args
  else pseudoRow m args

/-- The commands of a line of text: none for a blank line or a comment, one for a statement; no answer for a line the
syntax does not have. -/
def assembleText (line : String) : Option (List Command) :=
  match lexLine line.toList [] none with
  | none => none
  | some [] => some []
  | some (.bare m :: rest) => (textArgs rest).bind fun args => (statement m args).map fun c => [c]
  | some (.quoted _ :: _) => none
  | some (.comma :: _) => none

end Sys2Proof
end

