-- ==== Sys2Proof/Machine/Environment.lean ====
section
/-! DEFINITION. What the environment can do between steps (spec/00_scope.md R14, spec/10_state.md R15 to R19, R24): the
host's and the sink's moves. They change inputs only, but that raising `rst` has its effect at once (R170). -/

namespace Sys2Proof.Machine

/-- The host offers one more command (R15). -/
def State.offer (s : State) (c : Command) : State := { s with offers := s.offers ++ [c] }

/-- The environment drives `rst` (R19). The input is level-sensitive, so raising it resets the block at once: "While
`rst = 1`: the sequencer is in phase IDLE" (R170). -/
def State.driveReset (s : State) (level : Bool) : State :=
  if level then { s.clearByReset with rst := true } else { s with rst := false }

/-- The host drives `rsp_ready` (R16). -/
def State.driveReady (s : State) (level : Bool) : State := { s with rspReady := level }

/-- The sink will complete every further request (`none`) or so many more (`some n`) (R18, R162). -/
def State.grant (s : State) (g : Option Nat) : State := { s with sinkGrant := g }

/-- The environment fixes the angles of the next READs (R24). -/
def State.fixAngles (s : State) (as : List Byte) : State := { s with angles := as }

/-- A move of the environment. -/
inductive EnvMove where
  | offer (c : Command)
  | reset (level : Bool)
  | ready (level : Bool)
  | grant (g : Option Nat)
  | angles (as : List Byte)
deriving DecidableEq, Repr

/-- The state after a move of the environment. -/
def State.after (s : State) : EnvMove → State
  | .offer c => s.offer c
  | .reset level => s.driveReset level
  | .ready level => s.driveReady level
  | .grant g => s.grant g
  | .angles as => s.fixAngles as

end Sys2Proof.Machine
end

