-- ==== Sys2Proof/Safety.lean ====
section
/-! DEFINITION. The terms the claims use: what a run's end is (spec/70_reset_and_hazards.md R189), what the response of a
command is by the tables of spec/60_exceptions.md (R150, R151, R153), the invariant of the machine, and the states that
steps and environment moves reach from power-up. -/

namespace Sys2Proof.Machine

/-- The sink view a trace leaves, from nothing written (R25). -/
def viewOf (es : List Event) : SinkView := es.foldl SinkView.after .empty

/-- The state when a command is done: response `r` offered, events `es` issued, and nothing else changed. -/
def State.finish (s : State) (r : Response) (es : List Event) : State :=
  { s with seq := .resp r, trace := s.trace ++ es, view := es.foldl SinkView.after s.view }

/-- A block that takes a command and carries it out at once: a legal configuration (R7), IDLE and not in reset (R15), and
a sink that completes every request (R162). -/
structure State.Ready (s : State) : Prop where
  legal : configLegal s.cfg = true
  idle  : s.seq = .idle
  rst   : s.rst = false
  sink  : s.sinkGrant = none

/-- Every command accepted, every response taken, the block IDLE (R189). R189 does not speak of reset; here a run whose last
command a reset abandoned counts as ended too, while `rst = 1` as well, because nothing of it is left to issue or to take
(DESIGN CHOICE, log 18). -/
def State.ended (s : State) : Bool := s.offers.isEmpty && s.seq == .idle

/-! ### The response by R150, R151 and R153 -/

/-- A hex sequence whose length is accepted (R67). -/
def hexAccepted (c : Config) (h : HexSeq) : Bool := decide (1 ≤ h.length ∧ h.length ≤ c.hexMaxLen)

/-- The status of a word command: IGNORED_NO_CHANNEL where bits 16 and 17 are both 0 (R153, check 3). -/
def servoWordStatus (w : CmdWord) : Status := if w.getLsbD 16 || w.getLsbD 17 then .ok else .ignoredNoChannel

/-- The word a sequence parses to (R69), 0 where it is not accepted. -/
def hexWord (c : Config) (h : HexSeq) : CmdWord := BitVec.ofNat 20 ((parseHex c h).getD 0)

/-- The status of a command, by R153's checks in order. -/
def statusOf (c : Config) : Instr → Status
  | .decode _ => .ok
  | .parseHex h => if hexAccepted c h then .ok else .ignoredLength
  | .motorRaw _ => .ok
  | .motorHex h => if hexAccepted c h then .ok else .ignoredLength
  | .driveKw (.unrecognized _) _ => .ignoredKeyword
  | .driveKw (.known k) speeds =>
    match kwEntry c.kwTable k with
    | none => .ok
    | some e =>
      if c.kwRangeMode = .reject ∧
          ¬ (0 ≤ adjustedSpeed c (baseSpeeds c speeds).a e.offA ∧ adjustedSpeed c (baseSpeeds c speeds).a e.offA ≤ 255 ∧
            0 ≤ adjustedSpeed c (baseSpeeds c speeds).b e.offB ∧ adjustedSpeed c (baseSpeeds c speeds).b e.offB ≤ 255)
      then .rejectedRange else .ok
  | .driveVec a b =>
    if a.natAbs ≤ c.speedMax ∧ b.natAbs ≤ c.speedMax then .ok else .rejectedRange
  | .servoRaw v => servoWordStatus (v.extractLsb' 0 20)
  | .servoHex h => if hexAccepted c h then servoWordStatus (hexWord c h) else .ignoredLength
  | .servoStep (.noChannel _) _ => .ignoredChannel
  | .servoStep (.channel _) _ => .ok
  | .servoSweep (.noChannel _) _ => .ignoredChannel
  | .servoSweep (.channel _) _ => .ok
  | .reserved0 => .ignoredOpcode
  | .reservedB => .ignoredOpcode
  | .reservedC => .ignoredOpcode
  | .reservedD => .ignoredOpcode
  | .reservedE => .ignoredOpcode
  | .reservedF => .ignoredOpcode

/-- The word a response carries (R150): the masked word of a word command, 0 for every other command and outcome. -/
def carriedWord (c : Config) : Instr → CmdWord
  | .decode v => v.extractLsb' 0 20
  | .motorRaw v => v.extractLsb' 0 20
  | .servoRaw v => v.extractLsb' 0 20
  | .parseHex h => hexWord c h
  | .motorHex h => hexWord c h
  | .servoHex h => hexWord c h
  | .driveKw _ _ => 0
  | .driveVec _ _ => 0
  | .servoStep _ _ => 0
  | .servoSweep _ _ => 0
  | .reserved0 => 0
  | .reservedB => 0
  | .reservedC => 0
  | .reservedD => 0
  | .reservedE => 0
  | .reservedF => 0

/-- The response of a command (R150): its status, its word, and the word's fields. -/
def responseOf (c : Config) (i : Instr) : Response :=
  ⟨statusOf c i, carriedWord c i, (carriedWord c i).extractLsb' 16 4, (carriedWord c i).extractLsb' 8 8,
    (carriedWord c i).extractLsb' 0 8⟩

/-! ### The invariant -/

/-- A response's fields are those of its word (R150): all 0 where the word is 0. -/
def fieldsAgree (r : Response) : Bool :=
  r.control == wordControl r.word && r.high == wordHigh r.word && r.low == wordLow r.word

/-- A frame index is at most FRAMES and a sweep position within the bounds (R23, R27, R143). -/
def opInRange (c : Config) : Op → Bool
  | .ramp _ i => decide (i ≤ c.frames)
  | .frameSleep i => decide (i ≤ c.frames)
  | .sweep _ p => decide (c.posMin ≤ p ∧ p ≤ c.posMax)
  | .sweepSleep p => decide (c.posMin ≤ p ∧ p ≤ c.posMax)
  | .dir _ _ => true
  | .duty _ _ => true
  | .enter _ => true
  | .sense _ => true
  | .nudge _ _ => true
  | .stepSleep => true

/-- The lane of `s` holds what its entry read gave it. -/
def laneReady (c : Config) (t : Transient) (s : Servo) : Bool :=
  t.lane s == laneEntered c (targetByte t.rsp.word s) (t.lane s).cur

/-- No write of a frame reads a lane register before the entry read has written it (R26). -/
def rampsReady (c : Config) (t : Transient) (s : Servo) : List Op → Bool
  | [] => true
  | .enter s' :: rest => s' == s || rampsReady c t s rest
  | .ramp s' _ :: rest => if s' == s then laneReady c t s else rampsReady c t s rest
  | _ :: rest => rampsReady c t s rest

/-- The step variant's read. -/
def isSense : Op → Bool
  | .sense _ => true
  | _ => false

/-- A frame's write. -/
def isRamp : Op → Bool
  | .ramp _ _ => true
  | _ => false

/-- What a phase's data satisfies: a BUSY block has a request left, and only a command of status OK has one (R22,
R152); no command both steps a channel and ramps (R128, R141). -/
def seqInv (c : Config) : Seq → Bool
  | .idle => true
  | .resp r => fieldsAgree r
  | .busy t todo _ =>
    !todo.isEmpty && t.rsp.status == .ok && fieldsAgree t.rsp && todo.all (opInRange c) &&
      (todo.all (fun op => !isSense op) || todo.all (fun op => !isRamp op)) &&
      rampsReady c t .one todo && rampsReady c t .two todo

/-- The invariant of the machine. -/
structure State.Inv (s : State) : Prop where
  /-- The configuration is legal (R7, R173). -/
  legal : configLegal s.cfg = true
  /-- The sink view is what the trace leaves (R25). -/
  view : s.view = viewOf s.trace
  /-- The phase's data is in order. -/
  seq : seqInv s.cfg s.seq = true
  /-- Every response taken has its word's fields (R150). -/
  responses : s.responses.all fieldsAgree = true
  /-- A command is held exactly while it is in flight (R23). -/
  sampled : s.sampled.isSome = !(s.seq == .idle)
  /-- "While `rst = 1`: the sequencer is in phase IDLE" (R170). -/
  reset : s.rst = true → s.seq = .idle

/-- The states that steps and environment moves reach from power-up with a legal configuration (R173). -/
inductive Reachable : State → Prop where
  | powerUp (c : Config) (h : configLegal c = true) : Reachable (State.powerUp c)
  | step (s t : State) (h : Reachable s) (hs : step s = .next t) : Reachable t
  | env (s : State) (m : EnvMove) (h : Reachable s) : Reachable (s.after m)

end Sys2Proof.Machine
end

