-- ==== Sys2Proof/WellFormed.lean ====
section
/-! DEFINITION. Which commands a descriptor can carry: the range of each operand that its Lean type does not
bound already (spec/30_encoding.md R59, R61, R62). -/

namespace Sys2Proof

/-- An unrecognized keyword code is 9 to 15 (R59). -/
def KwCode.wf : KwCode → Bool
  | .known _ => true
  | .unrecognized code => decide (9 ≤ code.toNat)

/-- A code that selects no channel is 0 or 3 (R62). -/
def ChannelSel.wf : ChannelSel → Bool
  | .channel _ => true
  | .noChannel code => code == 0 || code == 3

/-- A vector component is what 16 bits of two's complement hold (R61). -/
def componentWf (a : Int) : Bool := decide (-32768 ≤ a ∧ a ≤ 32767)

/-- The command is one that some descriptor and hex sequence decode to. -/
def Instr.wf : Instr → Bool
  | .decode _ => true
  | .parseHex _ => true
  | .motorRaw _ => true
  | .motorHex _ => true
  | .driveKw k _ => k.wf
  | .driveVec a b => componentWf a && componentWf b
  | .servoRaw _ => true
  | .servoHex _ => true
  | .servoStep ch _ => ch.wf
  | .servoSweep ch _ => ch.wf
  | .reserved0 => true
  | .reservedB => true
  | .reservedC => true
  | .reservedD => true
  | .reservedE => true
  | .reservedF => true

end Sys2Proof
end

