-- ==== Sys2Proof/Certificates/Slice0/Obligations.lean ====
section
/-! DEFINITION. The statements for the provers, from the numbered rules of spec/. Each docstring names the rules it
formalises. Statements hold for every configuration, every angle drawn and every state unless a hypothesis says less. -/

namespace Sys2Proof.Claims

open Sys2Proof.Machine

/-! ### Formulas of the spec, written out once -/

/-- The response with the masked word of an input value and its fields (R80, R150). -/
def wordReply (st : Status) (v : Operand) : Response :=
  ⟨st, v.extractLsb' 0 20, v.extractLsb' 16 4, v.extractLsb' 8 8, v.extractLsb' 0 8⟩

/-- The response with zero fields (R150). -/
def zeroReply (st : Status) : Response := ⟨st, 0, 0, 0, 0⟩

/-- A hex sequence of a length that is rejected: 0, or more than HEX_MAX_LEN (R67). -/
def HexRejected (cfg : Config) (c : HexSeq) : Prop := c.length = 0 ∨ cfg.hexMaxLen < c.length

/-- The positional sum of R69: the last character has position 0. -/
def hexSum (c : HexSeq) : Nat := ∑ k ∈ Finset.range c.length, hexDigit (c.getD (c.length - 1 - k) 0) * 16 ^ k

/-- The operand a hex sequence stands for (R90). -/
def hexOperand (c : HexSeq) : Operand := BitVec.ofNat 32 (hexSum c)

/-- The four events of a drive: lines, then duties (R94, R97). -/
def driveEvents (lA lB : Bool) (sA sB : Byte) : List Event :=
  [.dir .a lA, .dir .b lB, .duty .a sA, .duty .b sB]

/-- The two events of `stop` (R96). -/
def stopEvents : List Event := [.duty .a 0, .duty .b 0]

/-- The events of a direction primitive with integer speeds (R94, R95). -/
def goEvents (l : Levels) (sA sB : Int) : List Event := driveEvents l.a l.b (BitVec.ofInt 8 sA) (BitVec.ofInt 8 sB)

/-- The events of a motor word (R97). -/
def motorEvents (v : Operand) : List Event :=
  driveEvents (v.getLsbD 17) (v.getLsbD 16) (v.extractLsb' 0 8) (v.extractLsb' 8 8)

/-- The stop override (R110). -/
def overrideEvents (c : Config) (a b : Int) : List Event :=
  if a.natAbs ≤ c.stopThreshold ∧ b.natAbs ≤ c.stopThreshold then stopEvents else []

/-- The direction events under `chain`: the first matching case (R108). -/
def chainEvents (c : Config) (a b : Int) : List Event :=
  if 0 ≤ a ∧ 0 ≤ b then goEvents c.dirLevels.forward a b
  else if a ≤ 0 ∧ b ≤ 0 then goEvents c.dirLevels.backward (-a) (-b)
  else if a ≤ 0 then goEvents c.dirLevels.left (-a) b
  else goEvents c.dirLevels.right a (-b)

/-- The direction events under `independent`: every matching case in order (R109). -/
def independentEvents (c : Config) (a b : Int) : List Event :=
  (if 0 ≤ a ∧ 0 ≤ b then goEvents c.dirLevels.forward a b else []) ++
  (if a ≤ 0 ∧ b ≤ 0 then goEvents c.dirLevels.backward (-a) (-b) else []) ++
  (if a ≤ 0 ∧ 0 ≤ b then goEvents c.dirLevels.left (-a) b else []) ++
  (if 0 ≤ a ∧ b ≤ 0 then goEvents c.dirLevels.right a (-b) else [])

/-- The clamped target of a byte (R126). -/
def target (c : Config) (t : Byte) : Int := max (c.posMin : Int) (min (t.toNat : Int) c.posMax)

/-- The distance `D` of a lane in pulse units (R130). -/
def distance (c : Config) (t cur : Byte) : Int := (c.pulseScale : Int) * (target c t - (cur.toNat : Int))

/-- The delta of a lane (R125). -/
def delta (c : Config) (t cur : Byte) : Int := Int.tdiv (distance c t cur) c.frames

/-- The pulse of frame `i` as an integer number of microseconds (R127). -/
def framePulse (c : Config) (t cur : Byte) (i : Nat) : Int :=
  (c.pulseBase : Int) + (c.pulseScale : Int) * (cur.toNat : Int) + (i : Int) * delta c t cur

/-- `posPulse` of R121. -/
def positionPulse (c : Config) (p : Int) : Int := (c.pulseBase : Int) + (c.pulseScale : Int) * p

/-- The events of frame `i` (R127): each active channel's pulse, channel 1 first, then the delay. -/
def frameEvents (c : Config) (act1 act2 : Bool) (t1 t2 cur1 cur2 : Byte) (i : Nat) : List Event :=
  (if act1 then [Event.pulse .one (BitVec.ofInt 16 (framePulse c t1 cur1 i))] else []) ++
  (if act2 then [Event.pulse .two (BitVec.ofInt 16 (framePulse c t2 cur2 i))] else []) ++ [.sleep c.frameDelay]

/-- The state a servo word leaves (R122, R123, R127, R128): the no-op, or a READ of each active channel, channel 1
first, and then frames 0 to F. -/
def servoDone (v : Operand) (s : State) : State :=
  if v.getLsbD 16 = false ∧ v.getLsbD 17 = false then s.finish (wordReply .ignoredNoChannel v) []
  else
    let s1 := if v.getLsbD 16 then s.takeAngle else s
    let s2 := if v.getLsbD 17 then s1.takeAngle else s1
    s2.finish (wordReply .ok v)
      ((if v.getLsbD 16 then [Event.read .one s.nextAngle] else []) ++
        (if v.getLsbD 17 then [Event.read .two s1.nextAngle] else []) ++
        (List.range (s.cfg.frames + 1)).flatMap
          (frameEvents s.cfg (v.getLsbD 16) (v.getLsbD 17) (v.extractLsb' 0 8) (v.extractLsb' 8 8) s.nextAngle
            s1.nextAngle))

/-- The events of a sweep (R143, R145). -/
def sweepEvents (c : Config) (s : Servo) (up : Bool) : List Event :=
  (List.range (c.posMax - c.posMin + 1)).flatMap fun (k : Nat) =>
    [Event.pulse s (BitVec.ofInt 16 (positionPulse c (if up then (c.posMin : Int) + k else (c.posMax : Int) - k))),
      .sleep c.sweepDelay]

/-- The step position of R140. -/
def nudged (c : Config) (up : Bool) (cur : Byte) : Int :=
  max (c.posMin : Int) (min ((cur.toNat : Int) + (if up then (c.stepDeg : Int) else -(c.stepDeg : Int))) c.posMax)

/-- The table's two adjusted speeds of a keyword row (R103). -/
def adjusted (c : Config) (e : KwEntry) (speeds : Option SpeedPair) : Int × Int :=
  ((((speeds.map SpeedPair.a).getD c.defaultSpeedA).toNat : Int) - offsetValue c e.offA,
    (((speeds.map SpeedPair.b).getD c.defaultSpeedB).toNat : Int) - offsetValue c e.offB)

/-- A speed a duty channel carries (R105). -/
def DutyRange (x : Int) : Prop := 0 ≤ x ∧ x ≤ 255

/-- The nine descriptor words of R76 and the commands they are. -/
def fixedForms : List (Descriptor × Instr) :=
  [(0x5800000000000000, .driveKw (.known .stop) none),
   (0x5000000000000000, .driveKw (.known .forward) none),
   (0x9050000000000000, .servoStep (.channel .one) true),
   (0x9020000000000000, .servoStep (.channel .two) false),
   (0xA010000000000000, .servoSweep (.channel .one) false),
   (0xA060000000000000, .servoSweep (.channel .two) true),
   (0x300000000003FFFF, .motorRaw 0x3FFFF),
   (0x700000000003A0A0, .servoRaw 0x3A0A0),
   (0x600000000032FFCE, .driveVec (-50) 50)]

/-- The nine forms of R76 as text (R74), with their descriptor values. -/
def fixedTexts : List (String × Descriptor) :=
  [("DRIVE_KW stop", 0x5800000000000000),
   ("DRIVE_KW forward", 0x5000000000000000),
   ("SERVO_STEP 1, up", 0x9050000000000000),
   ("SERVO_STEP 2, down", 0x9020000000000000),
   ("SERVO_SWEEP 1, down", 0xA010000000000000),
   ("SERVO_SWEEP 2, up", 0xA060000000000000),
   ("MOTOR_RAW 0x3FFFF", 0x300000000003FFFF),
   ("SERVO_RAW 0x3A0A0", 0x700000000003A0A0),
   ("DRIVE_VEC -50, 50", 0x600000000032FFCE)]

/-- A drive command (41_motor_drive_dispatcher.md). -/
def isDrive : Instr → Bool
  | .motorRaw _ => true
  | .motorHex _ => true
  | .driveKw _ _ => true
  | .driveVec _ _ => true
  | _ => false

/-- A servo command (42_servo_linear_interpolator.md). -/
def isServo : Instr → Bool
  | .servoRaw _ => true
  | .servoHex _ => true
  | .servoStep _ _ => true
  | .servoSweep _ _ => true
  | _ => false

end Sys2Proof.Claims

open Sys2Proof Sys2Proof.Machine Sys2Proof.Claims

/-! ### Encoding -/

/-- Decoding the encoding of a command gives the command back, with every operand at every value its encoding admits
(R54 to R62; the assembly formula R73 is the spec's own derivation). -/
def Obligations.DecodeOfEncodeIsTheCommand : Prop :=
  ∀ i : Instr, i.wf = true → decode (encode i).desc (encode i).hex = i

/-- Every descriptor and every hex sequence decodes to a well-formed command (the spec's own derivation R58). -/
def Obligations.EveryDescriptorDecodesWellFormed : Prop :=
  ∀ (d : Descriptor) (h : HexSeq), (decode d h).wf = true

/-- The nine fixed forms of R76 (the spec's own derivation), both ways. -/
def Obligations.FixedFormsOfTheSpecDecode : Prop :=
  ∀ p ∈ fixedForms, decode p.1 [] = p.2 ∧ encode p.2 = ⟨p.1, []⟩

/-- The text of the nine forms of R76 assembles to their descriptors, with no hex sequence (R74; R76 is the spec's
own derivation). -/
def Obligations.AssemblyTextOfTheFixedForms : Prop :=
  ∀ p ∈ fixedTexts, assembleText p.1 = some [⟨p.2, []⟩]

/-- Bits 63:60 select the operation (R56), and the operation takes from the descriptor and the hex sequence exactly what
R55 lists, so nothing else of them has an effect. -/
def Obligations.OperationTakesTheListedFields : Prop :=
  ∀ (d : Descriptor) (h : HexSeq),
    (d.extractLsb' 60 4 = 0x1 → decode d h = .decode (d.extractLsb' 0 32)) ∧
    (d.extractLsb' 60 4 = 0x2 → decode d h = .parseHex h) ∧
    (d.extractLsb' 60 4 = 0x3 → decode d h = .motorRaw (d.extractLsb' 0 32)) ∧
    (d.extractLsb' 60 4 = 0x4 → decode d h = .motorHex h) ∧
    (d.extractLsb' 60 4 = 0x5 → decode d h = .driveKw (KwCode.ofBits (d.extractLsb' 56 4))
      (if d.getLsbD 55 then some ⟨d.extractLsb' 0 8, d.extractLsb' 8 8⟩ else none)) ∧
    (d.extractLsb' 60 4 = 0x6 → decode d h = .driveVec (d.extractLsb' 0 16).toInt (d.extractLsb' 16 16).toInt) ∧
    (d.extractLsb' 60 4 = 0x7 → decode d h = .servoRaw (d.extractLsb' 0 32)) ∧
    (d.extractLsb' 60 4 = 0x8 → decode d h = .servoHex h) ∧
    (d.extractLsb' 60 4 = 0x9 → decode d h = .servoStep (ChannelSel.ofBits (d.extractLsb' 52 2)) (d.getLsbD 54)) ∧
    (d.extractLsb' 60 4 = 0xA → decode d h = .servoSweep (ChannelSel.ofBits (d.extractLsb' 52 2)) (d.getLsbD 54)) ∧
    (d.extractLsb' 60 4 = 0x0 → decode d h = .reserved0) ∧
    (d.extractLsb' 60 4 = 0xB → decode d h = .reservedB) ∧
    (d.extractLsb' 60 4 = 0xC → decode d h = .reservedC) ∧
    (d.extractLsb' 60 4 = 0xD → decode d h = .reservedD) ∧
    (d.extractLsb' 60 4 = 0xE → decode d h = .reservedE) ∧
    (d.extractLsb' 60 4 = 0xF → decode d h = .reservedF)

/-- The keyword codes of R59 and the channel codes of R62. -/
def Obligations.KeywordAndChannelCodes : Prop :=
  (∀ k : BitVec 4, KwCode.ofBits k =
    if k = 0 then .known .forward else if k = 1 then .known .backward else if k = 2 then .known .turnLeft
    else if k = 3 then .known .turnRight else if k = 4 then .known .diagonalForwardRight
    else if k = 5 then .known .diagonalForwardLeft else if k = 6 then .known .diagonalBackwardRight
    else if k = 7 then .known .diagonalBackwardLeft else if k = 8 then .known .stop else .unrecognized k) ∧
  (∀ c : BitVec 2, ChannelSel.ofBits c =
    if c = 1 then .channel .one else if c = 2 then .channel .two else .noChannel c)

/-- An assembled descriptor has the value of R73 (the spec's own derivation), and so have the operands of DRIVE_VEC and of DRIVE_KW with speeds. -/
def Obligations.AssembledDescriptorHasTheSumValue : Prop :=
  (∀ (op kw : BitVec 4) (hasSpeed dir : Bool) (ch : BitVec 2) (operand : Operand),
    (assemble op kw hasSpeed dir ch operand).toNat =
      op.toNat * 2 ^ 60 + kw.toNat * 2 ^ 56 + hasSpeed.toNat * 2 ^ 55 + dir.toNat * 2 ^ 54 + ch.toNat * 2 ^ 52 +
        operand.toNat) ∧
  (∀ a b : Int, ((vectorOperand a b).toNat : Int) = b % 2 ^ 16 * 2 ^ 16 + a % 2 ^ 16) ∧
  (∀ p : SpeedPair, (speedOperand p).toNat = p.b.toNat * 2 ^ 8 + p.a.toNat)

/-- The words a host encodes have the values of R66, and decoding them returns the encoded fields. -/
def Obligations.EncodedWordsReturnTheirFields : Prop :=
  ∀ (x y : Bool) (p q : Byte),
    ((encodeMotor x y p q).toNat = x.toNat * 2 ^ 17 + y.toNat * 2 ^ 16 + q.toNat * 2 ^ 8 + p.toNat ∧
      wordLineA (encodeMotor x y p q) = x ∧ wordLineB (encodeMotor x y p q) = y ∧
      wordLow (encodeMotor x y p q) = p ∧ wordHigh (encodeMotor x y p q) = q ∧
      (encodeMotor x y p q).getLsbD 18 = false ∧ (encodeMotor x y p q).getLsbD 19 = false) ∧
    ((encodeServo x y p q).toNat = y.toNat * 2 ^ 17 + x.toNat * 2 ^ 16 + q.toNat * 2 ^ 8 + p.toNat ∧
      wordAct1 (encodeServo x y p q) = x ∧ wordAct2 (encodeServo x y p q) = y ∧
      targetByte (encodeServo x y p q) .one = p ∧ targetByte (encodeServo x y p q) .two = q ∧
      (encodeServo x y p q).getLsbD 18 = false ∧ (encodeServo x y p q).getLsbD 19 = false)

/-! ### The word and its hex form -/

/-- `decode(v)` of R80 for every 32-bit input, under every legal configuration (its WORD_BITS is R63's 20, log 19). -/
def Obligations.WordFieldsAreMasksAndShifts : Prop :=
  ∀ (c : Config) (v : Operand), configLegal c = true →
    (wordOf c v).toNat = v.toNat &&& 0xFFFFF ∧
    (wordLow (wordOf c v)).toNat = v.toNat &&& 0xFF ∧
    (wordHigh (wordOf c v)).toNat = (v.toNat >>> 8) &&& 0xFF ∧
    (wordControl (wordOf c v)).toNat = (v.toNat >>> 16) &&& 0xF

/-- The digit values of R68, for every character code. -/
def Obligations.HexDigitValues : Prop :=
  (∀ n : Nat, n ≤ 9 → hexDigit (BitVec.ofNat 8 (0x30 + n)) = n) ∧
  (∀ n : Nat, n ≤ 5 → hexDigit (BitVec.ofNat 8 (0x41 + n)) = 10 + n) ∧
  (∀ c : Byte, ¬ (0x30 ≤ c.toNat ∧ c.toNat ≤ 0x39) → ¬ (0x41 ≤ c.toNat ∧ c.toNat ≤ 0x46) → hexDigit c = 0)

/-- `parseHex` rejects exactly the lengths of R67, and its value is the positional sum of R69; with HEX_MAX_LEN 5, this
hardware's value, that is a 20-bit number. -/
def Obligations.ParseHexIsThePositionalSum : Prop :=
  ∀ (cfg : Config) (c : HexSeq),
    (HexRejected cfg c → parseHex cfg c = none) ∧
    (¬ HexRejected cfg c → parseHex cfg c = some (hexSum c) ∧ (cfg.hexMaxLen ≤ 5 → hexSum c ≤ 0xFFFFF))

/-- The laws of R91 (the spec's own derivation, for HEX_MAX_LEN 5): the rendering of a word parses to it, the parsed value
needs no masking, a leading `'0'` changes nothing, and a non-hex character is the nibble 0. Each law holds for every
HEX_MAX_LEN that leaves it its sense. -/
def Obligations.HexFormLaws : Prop :=
  ∀ cfg : Config,
    (5 ≤ cfg.hexMaxLen → ∀ w : CmdWord, parseHex cfg (hexRender w) = some w.toNat) ∧
    (configLegal cfg = true → cfg.hexMaxLen ≤ 5 →
      ∀ (c : HexSeq) (n : Nat), parseHex cfg c = some n → (wordOf cfg (parsedOperand n)).toNat = n) ∧
    (∀ c : HexSeq, 1 ≤ c.length → c.length < cfg.hexMaxLen → parseHex cfg (0x30 :: c) = parseHex cfg c) ∧
    (∀ (c : HexSeq) (n k : Nat) (x : Byte), parseHex cfg c = some n → k < c.length →
      ¬ (0x30 ≤ x.toNat ∧ x.toNat ≤ 0x39) → ¬ (0x41 ≤ x.toNat ∧ x.toNat ≤ 0x46) →
      parseHex cfg (c.set k x) = some (n - hexDigit (c.getD k 0) * 16 ^ (c.length - 1 - k)))

/-! ### The step -/

/-- A step of a ready block with a command on its channel is the decoded command's meaning, the offer taken and sampled
(R15, R22). -/
def Obligations.StepRunsTheDecodedCommand : Prop :=
  ∀ (s : State) (c : Command) (rest : List Command),
    configLegal s.cfg = true → s.rst = false → s.seq = .idle → s.offers = c :: rest →
    step s = exec (decode c.desc c.hex) { s with offers := rest, sampled := some c }

/-- With no command offered an IDLE block stays as it is; a response is held until `rsp_ready = 1` and then taken, which
returns the block to IDLE with nothing transient left (R15, R16, R22, R23). -/
def Obligations.ResponseIsHeldUntilTaken : Prop :=
  ∀ s : State, configLegal s.cfg = true → s.rst = false →
    (s.seq = .idle → s.offers = [] → step s = .next s) ∧
    (∀ r, s.seq = .resp r → s.rspReady = false → step s = .next s) ∧
    (∀ r, s.seq = .resp r → s.rspReady = true →
      step s = .next { s with responses := s.responses ++ [r], seq := .idle, sampled := none })

/-- A block whose sink completes nothing issues its next request and holds it: nothing else is issued and nothing else
changes (R18, R46, D36; that waiting is an unchanged state is the model's choice, log 7). -/
def Obligations.OutstandingRequestIsHeld : Prop :=
  ∀ (s : State) (t : Transient) (op : Op) (rest : List Op) (issued : Bool),
    configLegal s.cfg = true → s.rst = false → s.seq = .busy t (op :: rest) issued → s.sinkGrant = some 0 →
    step s = .next { s with seq := .busy t (op :: rest) true } ∧
    ({ s with seq := .busy t (op :: rest) true } : State).snkRequest = some (op.request s.cfg t)

/-- Raising `rst` in any state leaves an IDLE block with nothing ready, offered or issued and no transient state, abandons
the command in flight without a response, and writes nothing unless a request is outstanding; steps leave it so, and it is
ready when `rst` falls (R170). In every state with `rst = 1` the ports are at 0, and a step leaves the block IDLE. -/
def Obligations.ResetAbandonsTheCommand : Prop :=
  ∀ s : State, configLegal s.cfg = true →
    ((s.driveReset true).seq = .idle ∧ (s.driveReset true).sampled = none ∧ (s.driveReset true).cmdReady = false ∧
      (s.driveReset true).rspValid = false ∧ (s.driveReset true).snkValid = false ∧
      (s.driveReset true).responses = s.responses ∧ (s.driveReset true).offers = s.offers ∧
      (s.driveReset true).cfg = s.cfg ∧
      (s.outstanding = none → (s.driveReset true).trace = s.trace ∧ (s.driveReset true).view = s.view) ∧
      step (s.driveReset true) = .next (s.driveReset true) ∧
      ((s.driveReset true).driveReset false).cmdReady = true) ∧
    (s.rst = true → s.cmdReady = false ∧ s.rspValid = false ∧ s.snkValid = false ∧
      ∃ t, step s = .next t ∧ t.seq = .idle ∧ t.sampled = none)

/-- A write outstanding when `rst` rises either took effect or did not; an outstanding READ or SLEEP leaves no effect
(R171, R49). That the taken write enters the trace and the view is the model's own choice (log 4). -/
def Obligations.ResetLeavesTheOutstandingWriteOpen : Prop :=
  ∀ (s : State) (r : Request), s.outstanding = some r →
    ((s.driveReset true).trace = s.trace ∧ (s.driveReset true).view = s.view) ∨
      (r.isWrite = true ∧ (s.driveReset true).trace = s.trace ++ [r.event 0] ∧
        (s.driveReset true).view = s.view.after (r.event 0))

/-- A sink that stops after `k` requests cuts the trace after its first `k` events, and the block is BUSY exactly when
events are missing (R46, R158; the spec's own derivation R171; that a step ends at any event is the model's choice,
log 2). -/
def Obligations.CutTraceIsTheFirstEvents : Prop :=
  ∀ (i : Instr) (s t u : State) (k : Nat), s.Ready → exec i s = .next t → exec i (s.grant (some k)) = .next u →
    ∃ es, t.trace = s.trace ++ es ∧ u.trace = s.trace ++ es.take k ∧
      (es.length ≤ k → u.seq = t.seq) ∧
      (k < es.length → ∃ tr op rest, u.seq = .busy tr (op :: rest) false)

/-- A command stopped by its sink at any event and resumed ends in the state it would have reached without the stop
(R18, R46): the trace, the response and the state do not depend on when the sink completes. The steps themselves are the
model's choice (log 2). -/
def Obligations.StoppedCommandResumesToTheSameEnd : Prop :=
  ∀ (i : Instr) (s t u : State) (k : Nat), s.Ready → exec i s = .next t → exec i (s.grant (some k)) = .next u →
    u.grant none = t ∨ step (u.grant none) = .next t

/-- A command that meets `cmd_ready = 0` waits: nothing changes (R15, R180; that `exec` shows this as an unchanged state is
the model's deduction, log 15). -/
def Obligations.CommandWaitsWhileNotReady : Prop :=
  ∀ (i : Instr) (s : State), configLegal s.cfg = true → s.cmdReady = false → exec i s = .next s

/-! ### The decoder's commands -/

/-- DECODE answers the masked word and its fields, with no sink event (R84). -/
def Obligations.DecodeAnswersTheWord : Prop :=
  ∀ (v : Operand) (s : State), s.Ready → exec (.decode v) s = .next (s.finish (wordReply .ok v) [])

/-- PARSEHEX answers the parsed word and its fields, or IGNORED_LENGTH with zero fields; no sink event (R88). -/
def Obligations.ParseHexAnswersTheParsedWord : Prop :=
  ∀ (c : HexSeq) (s : State), s.Ready →
    (HexRejected s.cfg c → exec (.parseHex c) s = .next (s.finish (zeroReply .ignoredLength) [])) ∧
    (¬ HexRejected s.cfg c → exec (.parseHex c) s = .next (s.finish (wordReply .ok (hexOperand c)) []))

/-! ### The drive commands -/

/-- MOTOR_RAW drives the lines from bits 17 and 16 and the duties from the low and high bytes (R97, R99). -/
def Obligations.MotorRawDrivesTheWord : Prop :=
  ∀ (v : Operand) (s : State), s.Ready → exec (.motorRaw v) s = .next (s.finish (wordReply .ok v) (motorEvents v))

/-- MOTOR_HEX does what MOTOR_RAW does with the parsed value, or nothing with IGNORED_LENGTH (R90, R101). -/
def Obligations.MotorHexDrivesTheParsedWord : Prop :=
  ∀ (c : HexSeq) (s : State), s.Ready →
    (HexRejected s.cfg c → exec (.motorHex c) s = .next (s.finish (zeroReply .ignoredLength) [])) ∧
    (¬ HexRejected s.cfg c →
      exec (.motorHex c) s = .next (s.finish (wordReply .ok (hexOperand c)) (motorEvents (hexOperand c))))

/-- The motor round trip of R115 (the spec's own derivation). -/
def Obligations.MotorWordRoundTrip : Prop :=
  ∀ (lA lB : Bool) (sA sB : Byte) (s : State), s.Ready →
    exec (.motorRaw (encodeMotor lA lB sA sB).operand) s =
      .next (s.finish ⟨.ok, encodeMotor lA lB sA sB, BitVec.ofNat 4 (2 * lA.toNat + lB.toNat), sB, sA⟩
        [.dir .a lA, .dir .b lB, .duty .a sA, .duty .b sB])

/-- DRIVE_KW of an unrecognized code (R59) does nothing and answers IGNORED_KEYWORD (R106); `stop` zeroes both duties, writes
no line (R96), answers OK (R106) and looks at no speed (the spec's own derivation R107). -/
def Obligations.KeywordUnrecognizedOrStop : Prop :=
  ∀ (speeds : Option SpeedPair) (s : State), s.Ready →
    (∀ code, exec (.driveKw (.unrecognized code) speeds) s = .next (s.finish (zeroReply .ignoredKeyword) [])) ∧
    exec (.driveKw (.known .stop) speeds) s = .next (s.finish (zeroReply .ok) stopEvents)

/-- DRIVE_KW of a direction keyword (R94, R103, R105): adjusted speeds in 0..255 drive the table's primitive as they are;
otherwise `reject` issues nothing and answers REJECTED_RANGE, and `saturate` clamps each speed and drives the primitive. -/
def Obligations.KeywordDrivesItsPrimitive : Prop :=
  ∀ (k : Keyword) (e : KwEntry) (speeds : Option SpeedPair) (s : State), s.Ready →
    kwEntry s.cfg.kwTable k = some e →
    (DutyRange (adjusted s.cfg e speeds).1 ∧ DutyRange (adjusted s.cfg e speeds).2 →
      exec (.driveKw (.known k) speeds) s =
        .next (s.finish (zeroReply .ok)
          (goEvents (levelsOf s.cfg e.prim) (adjusted s.cfg e speeds).1 (adjusted s.cfg e speeds).2))) ∧
    (¬ (DutyRange (adjusted s.cfg e speeds).1 ∧ DutyRange (adjusted s.cfg e speeds).2) →
      (s.cfg.kwRangeMode = .reject →
        exec (.driveKw (.known k) speeds) s = .next (s.finish (zeroReply .rejectedRange) [])) ∧
      (s.cfg.kwRangeMode = .saturate →
        exec (.driveKw (.known k) speeds) s =
          .next (s.finish (zeroReply .ok)
            (goEvents (levelsOf s.cfg e.prim) (max 0 (min (adjusted s.cfg e speeds).1 255))
              (max 0 (min (adjusted s.cfg e speeds).2 255))))))

/-- The document's keyword table and levels (R95, R104; the spec's own choices D10 and D11): the events of each
direction keyword with explicit speeds in range after the offsets. -/
def Obligations.DefaultKeywordTable : Prop :=
  ∀ (sA sB : Byte) (s : State), s.Ready → s.cfg.kwTable = KwTable.standard → s.cfg.dirLevels = DirLevels.standard →
    exec (.driveKw (.known .forward) (some ⟨sA, sB⟩)) s =
      .next (s.finish (zeroReply .ok) (driveEvents true true sA sB)) ∧
    exec (.driveKw (.known .backward) (some ⟨sA, sB⟩)) s =
      .next (s.finish (zeroReply .ok) (driveEvents false false sA sB)) ∧
    (DutyRange (sA.toNat - s.cfg.fix1) → DutyRange (sB.toNat - s.cfg.fix1) →
      exec (.driveKw (.known .turnLeft) (some ⟨sA, sB⟩)) s =
        .next (s.finish (zeroReply .ok) (goEvents ⟨false, true⟩ (sA.toNat - s.cfg.fix1) (sB.toNat - s.cfg.fix1))) ∧
      exec (.driveKw (.known .turnRight) (some ⟨sA, sB⟩)) s =
        .next (s.finish (zeroReply .ok) (goEvents ⟨true, false⟩ (sA.toNat - s.cfg.fix1) (sB.toNat - s.cfg.fix1)))) ∧
    (DutyRange (sA.toNat - s.cfg.fix2) →
      exec (.driveKw (.known .diagonalForwardRight) (some ⟨sA, sB⟩)) s =
        .next (s.finish (zeroReply .ok) (goEvents ⟨true, true⟩ (sA.toNat - s.cfg.fix2) sB.toNat)) ∧
      exec (.driveKw (.known .diagonalBackwardRight) (some ⟨sA, sB⟩)) s =
        .next (s.finish (zeroReply .ok) (goEvents ⟨false, false⟩ (sA.toNat - s.cfg.fix2) sB.toNat))) ∧
    (DutyRange (sB.toNat - s.cfg.fix2) →
      exec (.driveKw (.known .diagonalForwardLeft) (some ⟨sA, sB⟩)) s =
        .next (s.finish (zeroReply .ok) (goEvents ⟨true, true⟩ sA.toNat (sB.toNat - s.cfg.fix2))) ∧
      exec (.driveKw (.known .diagonalBackwardLeft) (some ⟨sA, sB⟩)) s =
        .next (s.finish (zeroReply .ok) (goEvents ⟨false, false⟩ sA.toNat (sB.toNat - s.cfg.fix2))))

/-- DRIVE_VEC with a component outside ±SPEED_MAX issues nothing and answers REJECTED_RANGE (R111). -/
def Obligations.VectorOutOfRangeIsRejected : Prop :=
  ∀ (a b : Int) (s : State), s.Ready → (s.cfg.speedMax < a.natAbs ∨ s.cfg.speedMax < b.natAbs) →
    exec (.driveVec a b) s = .next (s.finish (zeroReply .rejectedRange) [])

/-- DRIVE_VEC in range: the direction case or cases of the configuration's `VEC_BRANCHES`, then the stop override
(R108 to R111). -/
def Obligations.VectorDrivesItsCases : Prop :=
  ∀ (a b : Int) (s : State), s.Ready → a.natAbs ≤ s.cfg.speedMax → b.natAbs ≤ s.cfg.speedMax →
    (s.cfg.vecBranches = .chain →
      exec (.driveVec a b) s =
        .next (s.finish (zeroReply .ok) (chainEvents s.cfg a b ++ overrideEvents s.cfg a b))) ∧
    (s.cfg.vecBranches = .independent →
      exec (.driveVec a b) s =
        .next (s.finish (zeroReply .ok) (independentEvents s.cfg a b ++ overrideEvents s.cfg a b)))

/-- Under either setting of `VEC_BRANCHES` the final duties of a vector are the same; the final line levels are those of
the first matching case under `chain` and of the last under `independent` (the
spec's own derivation R112). -/
def Obligations.VectorBranchesAgreeOnDuties : Prop :=
  ∀ (a b : Int) (s t u : State), s.Ready → a.natAbs ≤ s.cfg.speedMax → b.natAbs ≤ s.cfg.speedMax →
    exec (.driveVec a b) { s with cfg := { s.cfg with vecBranches := .chain } } = .next t →
    exec (.driveVec a b) { s with cfg := { s.cfg with vecBranches := .independent } } = .next u →
    t.view.dutyA = u.view.dutyA ∧ t.view.dutyB = u.view.dutyB ∧
    (∃ l, l = (if 0 ≤ a ∧ 0 ≤ b then s.cfg.dirLevels.forward else if a ≤ 0 ∧ b ≤ 0 then s.cfg.dirLevels.backward
        else if a ≤ 0 ∧ 0 ≤ b then s.cfg.dirLevels.left else s.cfg.dirLevels.right) ∧
      t.view.lineA = some l.a ∧ t.view.lineB = some l.b) ∧
    (∃ l, l = (if 0 ≤ a ∧ b ≤ 0 then s.cfg.dirLevels.right else if a ≤ 0 ∧ 0 ≤ b then s.cfg.dirLevels.left
        else if a ≤ 0 ∧ b ≤ 0 then s.cfg.dirLevels.backward else s.cfg.dirLevels.forward) ∧
      u.view.lineA = some l.a ∧ u.view.lineB = some l.b)

/-- A vector in range whose magnitudes are both at most STOP_THRESHOLD first issues its direction events `es`, those of the
first matching case under `chain` and of every matching case under `independent` (four or more), then the two of `stop`, and
ends with both duties 0 (R108 to R110; the spec's own derivation R114). -/
def Obligations.SlowVectorEndsStopped : Prop :=
  ∀ (a b : Int) (s : State), s.Ready → a.natAbs ≤ s.cfg.speedMax → b.natAbs ≤ s.cfg.speedMax →
    a.natAbs ≤ s.cfg.stopThreshold → b.natAbs ≤ s.cfg.stopThreshold →
    ∃ t es, exec (.driveVec a b) s = .next t ∧
      (s.cfg.vecBranches = .chain → es = chainEvents s.cfg a b) ∧
      (s.cfg.vecBranches = .independent → es = independentEvents s.cfg a b) ∧
      4 ≤ es.length ∧ t.trace = s.trace ++ es ++ stopEvents ∧
      t.view.dutyA = some 0 ∧ t.view.dutyB = some 0

/-- The final lines and duties of a drive command of status OK depend on that command and the configuration alone, but
for `stop`, which leaves the lines (the spec's own derivation R116). -/
def Obligations.DriveResultForgetsTheHistory : Prop :=
  ∀ (i : Instr) (s s' t t' : State), isDrive i = true → statusOf s.cfg i = .ok → s.Ready → s'.Ready → s'.cfg = s.cfg →
    exec i s = .next t → exec i s' = .next t' →
    t.view.dutyA = t'.view.dutyA ∧ t.view.dutyB = t'.view.dutyB ∧
    ((∀ speeds, i ≠ .driveKw (.known .stop) speeds) →
      t.view.lineA = t'.view.lineA ∧ t.view.lineB = t'.view.lineB) ∧
    (∀ speeds, i = .driveKw (.known .stop) speeds → t.view.lineA = s.view.lineA ∧ t.view.lineB = s.view.lineB)

/-! ### The servo commands -/

/-- SERVO_RAW: the no-op of a word with no active channel, or one READ of each active channel and then frames 0 to F
(R122 to R128). -/
def Obligations.ServoRawRampsTheActiveChannels : Prop :=
  ∀ (v : Operand) (s : State), s.Ready → exec (.servoRaw v) s = .next (servoDone v s)

/-- SERVO_HEX does what SERVO_RAW does with the parsed value, or nothing with IGNORED_LENGTH (R90, R138). -/
def Obligations.ServoHexRampsTheParsedWord : Prop :=
  ∀ (c : HexSeq) (s : State), s.Ready →
    (HexRejected s.cfg c → exec (.servoHex c) s = .next (s.finish (zeroReply .ignoredLength) [])) ∧
    (¬ HexRejected s.cfg c → exec (.servoHex c) s = .next (servoDone (hexOperand c) s))

/-- SERVO_STEP: READ, the pulse of the clamped step position, one delay; or IGNORED_CHANNEL and no event (R140, R141). -/
def Obligations.ServoStepNudgesFromTheReading : Prop :=
  ∀ (up : Bool) (s : State), s.Ready →
    (∀ code, exec (.servoStep (.noChannel code) up) s = .next (s.finish (zeroReply .ignoredChannel) [])) ∧
    (∀ ch, exec (.servoStep (.channel ch) up) s =
      .next (s.takeAngle.finish (zeroReply .ok)
        [.read ch s.nextAngle, .pulse ch (BitVec.ofInt 16 (positionPulse s.cfg (nudged s.cfg up s.nextAngle))),
          .sleep s.cfg.stepDelay]))

/-- SERVO_SWEEP: every position between the bounds, both endpoints included, each with its delay and with no READ; or
IGNORED_CHANNEL and no event (R143, R145). -/
def Obligations.ServoSweepWritesEveryPosition : Prop :=
  ∀ (up : Bool) (s : State), s.Ready →
    (∀ code, exec (.servoSweep (.noChannel code) up) s = .next (s.finish (zeroReply .ignoredChannel) [])) ∧
    (∀ ch, exec (.servoSweep (.channel ch) up) s =
      .next (s.finish (zeroReply .ok) (sweepEvents s.cfg ch up)))

/-- The event counts of R129 and R144 (the spec's own derivations). -/
def Obligations.ServoEventCounts : Prop :=
  (∀ (v : Operand) (s t : State), s.Ready → exec (.servoRaw v) s = .next t → v.getLsbD 16 || v.getLsbD 17 →
    t.trace.length = s.trace.length + ((v.getLsbD 16).toNat + (v.getLsbD 17).toNat) +
      (s.cfg.frames + 1) * ((v.getLsbD 16).toNat + (v.getLsbD 17).toNat + 1)) ∧
  (∀ (ch : Servo) (up : Bool) (s t : State), s.Ready → exec (.servoSweep (.channel ch) up) s = .next t →
    t.trace.length = s.trace.length + 2 * (s.cfg.posMax - s.cfg.posMin + 1) ∧
      (∀ e ∈ t.trace.drop s.trace.length, e.isRead = false))

/-- The last frame stops short of the target pulse by less than FRAMES microseconds and never passes it (the
spec's own derivation R130). -/
def Obligations.FinalFrameStopsShort : Prop :=
  ∀ (c : Config) (t cur : Byte), configLegal c = true →
    ∃ e : Int, e = distance c t cur - (c.frames : Int) * frameDelta c (clampTarget c t) cur ∧
      rampPulse c (laneEntered c t cur) c.frames = positionPulse c (target c t) - e ∧
      |e| < c.frames ∧ (e = 0 ∨ Int.sign e = Int.sign (distance c t cur))

/-- The pulses of a lane are monotone in the frame, strictly exactly when `|D| ≥ FRAMES` (the spec's own derivation
R131). -/
def Obligations.RampIsMonotone : Prop :=
  ∀ (c : Config) (t cur : Byte) (i j : Nat), configLegal c = true → i < j →
    ((cur.toNat : Int) < target c t →
      0 ≤ frameDelta c (clampTarget c t) cur ∧
      rampPulse c (laneEntered c t cur) i ≤ rampPulse c (laneEntered c t cur) j) ∧
    (target c t < (cur.toNat : Int) →
      rampPulse c (laneEntered c t cur) j ≤ rampPulse c (laneEntered c t cur) i) ∧
    (rampPulse c (laneEntered c t cur) i ≠ rampPulse c (laneEntered c t cur) j ↔
      (c.frames : Int) ≤ |distance c t cur|)

/-- Every pulse of a ramp lies between the pulses of the position read and of the target, and the 16-bit port carries
it unchanged, as it does the pulses of the step and sweep variants (the spec's own derivation R133, with R121). -/
def Obligations.PulsesFitThePort : Prop :=
  ∀ (c : Config) (t cur : Byte) (i p : Nat) (up : Bool), configLegal c = true →
    (i ≤ c.frames →
      positionPulse c (min (cur.toNat : Int) (target c t)) ≤ rampPulse c (laneEntered c t cur) i ∧
      rampPulse c (laneEntered c t cur) i ≤ positionPulse c (max (cur.toNat : Int) (target c t)) ∧
      ((pulseBits (rampPulse c (laneEntered c t cur) i)).toNat : Int) = rampPulse c (laneEntered c t cur) i) ∧
    (p ≤ c.posMax → ((pulseBits (posPulse c p)).toNat : Int) = positionPulse c p) ∧
    ((pulseBits (posPulse c (stepPosition c up cur))).toNat : Int) = positionPulse c (nudged c up cur)

/-- The clamp law of R132 (the spec's own derivation), for every byte. -/
def Obligations.ClampLaw : Prop :=
  ∀ (c : Config) (t : Byte), configLegal c = true →
    (c.posMin : Int) ≤ clampTarget c t ∧ clampTarget c t ≤ c.posMax ∧
    ((c.posMin : Int) ≤ t.toNat → (t.toNat : Int) ≤ c.posMax → clampTarget c t = t.toNat)

/-- Word bits 18 and 19 change neither the events nor the sink view nor the status of MOTOR_RAW and SERVO_RAW (R64, R65,
R70). -/
def Obligations.ControlBits18And19HaveNoEffect : Prop :=
  ∀ (v w : Operand) (s t u : State), s.Ready → v.extractLsb' 0 18 = w.extractLsb' 0 18 →
    (exec (.motorRaw v) s = .next t → exec (.motorRaw w) s = .next u →
      t.trace = u.trace ∧ t.view = u.view ∧
        t.rspRecord.map Response.status = u.rspRecord.map Response.status) ∧
    (exec (.servoRaw v) s = .next t → exec (.servoRaw w) s = .next u →
      t.trace = u.trace ∧ t.view = u.view ∧
        t.rspRecord.map Response.status = u.rspRecord.map Response.status)

/-! ### Outcomes -/

/-- The reserved operations issue nothing and answer IGNORED_OPCODE with zero fields (R154). -/
def Obligations.ReservedOperationsAreIgnored : Prop :=
  ∀ s : State, s.Ready →
    exec .reserved0 s = .next (s.finish (zeroReply .ignoredOpcode) []) ∧
    exec .reservedB s = .next (s.finish (zeroReply .ignoredOpcode) []) ∧
    exec .reservedC s = .next (s.finish (zeroReply .ignoredOpcode) []) ∧
    exec .reservedD s = .next (s.finish (zeroReply .ignoredOpcode) []) ∧
    exec .reservedE s = .next (s.finish (zeroReply .ignoredOpcode) []) ∧
    exec .reservedF s = .next (s.finish (zeroReply .ignoredOpcode) [])

/-- The status codes of R151: each name has its own code, and the codes 0x7 to 0xF are never produced. -/
def Obligations.StatusCodes : Prop :=
  statusCode .ok = 0x0 ∧ statusCode .ignoredLength = 0x1 ∧ statusCode .ignoredNoChannel = 0x2 ∧
  statusCode .ignoredKeyword = 0x3 ∧ statusCode .ignoredOpcode = 0x4 ∧ statusCode .ignoredChannel = 0x5 ∧
  statusCode .rejectedRange = 0x6 ∧ (∀ st : Status, (statusCode st).toNat < 7)

/-- The response of every command has the word and fields of R150 and the status of R151, by the order of checks of R153
(the spec's own derivation), however far the sink lets the command come. That it is decided at acceptance and held while
the block is BUSY is the model's deduction from R158 (log 11). -/
def Obligations.ResponseIsTheTablesResponse : Prop :=
  ∀ (i : Instr) (s t : State), configLegal s.cfg = true → s.cmdReady = true → exec i s = .next t →
    t.seq = .resp (responseOf s.cfg i) ∨
      ∃ tr todo, t.seq = .busy tr todo false ∧ tr.rsp = responseOf s.cfg i

/-- A command with a status other than OK issues no sink event at all (the spec's own derivation R152). -/
def Obligations.NotOkIssuesNoEvent : Prop :=
  ∀ (i : Instr) (s t : State), configLegal s.cfg = true → s.cmdReady = true → statusOf s.cfg i ≠ .ok →
    exec i s = .next t → t.trace = s.trace ∧ t.view = s.view ∧ t.seq = .resp (responseOf s.cfg i)

/-- No command and no step stops but for an illegal configuration, which stops every one (R156, R7). That the stop is a
fault is the model's deduction (log 6), and so is that WORD_BITS other than 20, which R7 does not name, is illegal
(log 19). -/
def Obligations.OnlyAnIllegalConfigurationStops : Prop :=
  (∀ (i : Instr) (s : State),
    (configLegal s.cfg = true → ∃ t, exec i s = .next t) ∧
    (configLegal s.cfg = false → exec i s = .fault .illegalConfiguration)) ∧
  (∀ s : State,
    (configLegal s.cfg = true → ∃ t, step s = .next t) ∧
    (configLegal s.cfg = false → step s = .fault .illegalConfiguration))

/-- The frame of every command, however far the sink lets it come: the configuration, the host's inputs, the sampled
command and the responses taken stay; the decoder's and the reserved commands, and a step or sweep of no channel, leave the
trace, the sink view, the angles and the sink's grant; a drive command writes no pulse, `stop` no line; a servo command
writes no line and no duty, and a channel that its word (given, or parsed from its hex sequence) does not activate, or that
its step or sweep does not select, keeps its pulse (R92, R96, R122, R137, R146, R154). -/
def Obligations.CommandFrame : Prop :=
  ∀ (i : Instr) (s t : State), exec i s = .next t →
    (t.cfg = s.cfg ∧ t.rst = s.rst ∧ t.offers = s.offers ∧ t.rspReady = s.rspReady ∧ t.sampled = s.sampled ∧
      t.responses = s.responses) ∧
    (isDrive i = false → isServo i = false →
      t.trace = s.trace ∧ t.view = s.view ∧ t.angles = s.angles ∧ t.draws = s.draws ∧ t.sinkGrant = s.sinkGrant) ∧
    (isDrive i = true → t.view.pulse1 = s.view.pulse1 ∧ t.view.pulse2 = s.view.pulse2 ∧ t.angles = s.angles ∧
      t.draws = s.draws) ∧
    (∀ speeds, i = .driveKw (.known .stop) speeds → t.view.lineA = s.view.lineA ∧ t.view.lineB = s.view.lineB) ∧
    (isServo i = true → t.view.lineA = s.view.lineA ∧ t.view.lineB = s.view.lineB ∧ t.view.dutyA = s.view.dutyA ∧
      t.view.dutyB = s.view.dutyB) ∧
    (∀ v : Operand, i = .servoRaw v →
      (v.getLsbD 16 = false → t.view.pulse1 = s.view.pulse1) ∧ (v.getLsbD 17 = false → t.view.pulse2 = s.view.pulse2)) ∧
    (∀ c : HexSeq, i = .servoHex c →
      ((hexOperand c).getLsbD 16 = false → t.view.pulse1 = s.view.pulse1) ∧
      ((hexOperand c).getLsbD 17 = false → t.view.pulse2 = s.view.pulse2)) ∧
    (∀ code up, i = .servoStep (.noChannel code) up ∨ i = .servoSweep (.noChannel code) up →
      t.trace = s.trace ∧ t.view = s.view ∧ t.angles = s.angles ∧ t.draws = s.draws ∧ t.sinkGrant = s.sinkGrant) ∧
    (∀ up, i = .servoStep (.channel .one) up ∨ i = .servoSweep (.channel .one) up → t.view.pulse2 = s.view.pulse2) ∧
    (∀ up, i = .servoStep (.channel .two) up ∨ i = .servoSweep (.channel .two) up → t.view.pulse1 = s.view.pulse1)

/-! ### Reset and the machine as a whole -/

/-- What the machine holds after reset, by R31 and R173: IDLE, ready, nothing offered at a port, no transient state, no
event issued, no entry of the sink view written, and the document's values (R6) with FRAMES 20, POS_MIN 20, POS_MAX 160. -/
def Obligations.ResetLeaves : Prop :=
  State.reset.seq = .idle ∧ State.reset.cmdReady = true ∧ State.reset.rspValid = false ∧ State.reset.snkValid = false ∧
  State.reset.sampled = none ∧ State.reset.view = .empty ∧ State.reset.trace = [] ∧ configLegal State.reset.cfg = true ∧
  State.reset.cfg.wordBits = 20 ∧ State.reset.cfg.hexMaxLen = 5 ∧ State.reset.cfg.posMin = 20 ∧
  State.reset.cfg.posMax = 160 ∧ State.reset.cfg.frames = 20 ∧
  State.reset.cfg.pulseBase = 600 ∧ State.reset.cfg.pulseScale = 10 ∧ State.reset.cfg.stepDeg = 10 ∧
  State.reset.cfg.stopThreshold = 100 ∧ State.reset.cfg.speedMax = 255

/-- A block at power-up with any legal configuration meets the invariant, and so does the machine right after reset. -/
def Obligations.PowerUpMeetsTheInvariant : Prop :=
  (∀ c : Config, configLegal c = true → (State.powerUp c).Inv) ∧ State.reset.Inv

/-- Every step keeps the invariant: the configuration stays legal, the sink view is what the trace leaves (R25), a BUSY
block has a request left and status OK (R22, R152), frame indices and sweep positions stay in range (R23), no lane
register is read before it is written (R26), and responses carry their word's fields (R150), and a block in reset is IDLE (R170). -/
def Obligations.StepKeepsTheInvariant : Prop :=
  ∀ s t : State, s.Inv → step s = .next t → t.Inv

/-- Every move of the environment keeps the invariant. -/
def Obligations.EnvironmentKeepsTheInvariant : Prop :=
  ∀ (s : State) (m : EnvMove), s.Inv → (s.after m).Inv

/-- Every state reached from power-up with a legal configuration, by any steps and any moves of the environment, meets
the invariant. -/
def Obligations.ReachableStatesMeetTheInvariant : Prop :=
  ∀ s : State, Reachable s → s.Inv

/-- A step never changes the configuration (R21), never rewrites or drops an event or a response, and takes at most one
response (R16). -/
def Obligations.StepOnlyAddsToTheRecord : Prop :=
  ∀ s t : State, step s = .next t →
    t.cfg = s.cfg ∧ (∃ es, t.trace = s.trace ++ es) ∧
      (t.responses = s.responses ∨ ∃ r, s.seq = .resp r ∧ t.responses = s.responses ++ [r])

/-- Commands are strictly sequential: with a host that takes responses and a sink that completes requests, two steps for
each command offered end the run (R189), every command accepted in order and answered once, with its own response (R16,
R46, R180). That a command takes two steps, its own and its response's, is the model's choice (log 2). -/
def Obligations.EveryOfferedCommandIsAnsweredInOrder : Prop :=
  ∀ s : State, s.Ready → s.rspReady = true →
    ∃ t, core.run (2 * s.offers.length) s = .next t ∧ t.ended = true ∧
      t.responses = s.responses ++ s.offers.map fun c => responseOf s.cfg (decode c.desc c.hex)

/-- A BUSY block, whether or not its next request is already outstanding, that its sink lets come `j` requests further and
then releases ends where it would have come without the stop; and whether the request was outstanding makes no difference
to any step (R18, R46: the held request is neither dropped nor issued twice). Taken again and again, this covers a sink that
stops any number of times. The steps are the model's choice (logs 2 and 7). -/
def Obligations.BusyBlockResumesToTheSameEnd : Prop :=
  ∀ (s : State) (t : Transient) (todo : List Op) (issued : Bool),
    configLegal s.cfg = true → s.rst = false → s.seq = .busy t todo issued →
    (∀ (j : Nat) (u v : State), step (s.grant none) = .next v → step (s.grant (some j)) = .next u →
      u.grant none = v ∨ step (u.grant none) = .next v) ∧
    (∀ issued' : Bool, step { s with seq := .busy t todo issued' } = step s)
end

