-- ==== Sys2Proof/Laws/Encoding.lean ====
section
/-! SUPPORT. The bits of an assembled descriptor (R54, R73), field by field. -/

namespace Sys2Proof

/-- Every bit of an assembled descriptor, from the least significant field up. -/
theorem getLsbD_assemble (op kw : BitVec 4) (hasSpeed dir : Bool) (ch : BitVec 2) (operand : Operand) (i : Nat) :
    (assemble op kw hasSpeed dir ch operand).getLsbD i =
      if i < 32 then operand.getLsbD i
      else if i < 52 then false
      else if i < 54 then ch.getLsbD (i - 52)
      else if i < 55 then dir
      else if i < 56 then hasSpeed
      else if i < 60 then kw.getLsbD (i - 56)
      else op.getLsbD (i - 60) := by
  change @BitVec.getLsbD (4 + 4 + 1 + 1 + 2 + 20 + 32)
    (op ++ kw ++ BitVec.ofBool hasSpeed ++ BitVec.ofBool dir ++ ch ++ 0#20 ++ operand) i = _
  simp only [BitVec.getLsbD_append, BitVec.getLsbD_ofBool, BitVec.getLsbD_zero]
  have e1 : i - 32 - 20 = i - 52 := by omega
  have e2 : i - 52 - 2 = i - 54 := by omega
  have e3 : i - 54 - 1 = i - 55 := by omega
  have e4 : i - 55 - 1 = i - 56 := by omega
  have e5 : i - 56 - 4 = i - 60 := by omega
  simp only [e1, e2, e3, e4, e5]
  by_cases h0 : i < 32
  · simp [h0]
  by_cases h1 : i < 52
  · have : i - 32 < 20 := by omega
    simp [h0, h1, this]
  by_cases h2 : i < 54
  · have g1 : ¬ (i - 32 < 20) := by omega
    have g2 : i - 52 < 2 := by omega
    simp [h0, h1, h2, g1, g2]
  have g1 : ¬ (i - 32 < 20) := by omega
  have g2 : ¬ (i - 52 < 2) := by omega
  by_cases h3 : i < 55
  · have g3 : i = 54 := by omega
    subst g3; simp
  have g3 : ¬ (i - 54 < 1) := by omega
  by_cases h4 : i < 56
  · have g4 : i = 55 := by omega
    subst g4; simp
  have g4 : ¬ (i - 55 < 1) := by omega
  by_cases h5 : i < 60
  · have g5 : i - 56 < 4 := by omega
    simp [h0, h1, h2, h3, h4, h5, g1, g2, g3, g4, g5]
  · have g5 : ¬ (i - 56 < 4) := by omega
    simp [h0, h1, h2, h3, h4, h5, g1, g2, g3, g4, g5]

@[simp] theorem op_assemble (op kw : BitVec 4) (hasSpeed dir : Bool) (ch : BitVec 2) (operand : Operand) :
    (assemble op kw hasSpeed dir ch operand).op = op := by
  apply BitVec.eq_of_getLsbD_eq
  intro i hi
  simp only [Descriptor.op, BitVec.getLsbD_extractLsb', getLsbD_assemble]
  simp [hi, show ¬ (60 + i < 32) by omega, show ¬ (60 + i < 52) by omega, show ¬ (60 + i < 54) by omega,
    show ¬ (60 + i < 55) by omega, show ¬ (60 + i < 56) by omega, show ¬ (60 + i < 60) by omega]

@[simp] theorem kw_assemble (op kw : BitVec 4) (hasSpeed dir : Bool) (ch : BitVec 2) (operand : Operand) :
    (assemble op kw hasSpeed dir ch operand).kw = kw := by
  apply BitVec.eq_of_getLsbD_eq
  intro i hi
  simp only [Descriptor.kw, BitVec.getLsbD_extractLsb', getLsbD_assemble]
  simp [hi, show ¬ (56 + i < 32) by omega, show ¬ (56 + i < 52) by omega, show ¬ (56 + i < 54) by omega,
    show ¬ (56 + i < 55) by omega, show ¬ (56 + i < 56) by omega, show 56 + i < 60 by omega]

@[simp] theorem hasSpeed_assemble (op kw : BitVec 4) (hasSpeed dir : Bool) (ch : BitVec 2) (operand : Operand) :
    (assemble op kw hasSpeed dir ch operand).hasSpeed = hasSpeed := by
  simp only [Descriptor.hasSpeed, getLsbD_assemble]; simp

@[simp] theorem dir_assemble (op kw : BitVec 4) (hasSpeed dir : Bool) (ch : BitVec 2) (operand : Operand) :
    (assemble op kw hasSpeed dir ch operand).dir = dir := by
  simp only [Descriptor.dir, getLsbD_assemble]; simp

@[simp] theorem ch_assemble (op kw : BitVec 4) (hasSpeed dir : Bool) (ch : BitVec 2) (operand : Operand) :
    (assemble op kw hasSpeed dir ch operand).ch = ch := by
  apply BitVec.eq_of_getLsbD_eq
  intro i hi
  simp only [Descriptor.ch, BitVec.getLsbD_extractLsb', getLsbD_assemble]
  simp [hi, show ¬ (52 + i < 32) by omega, show ¬ (52 + i < 52) by omega, show 52 + i < 54 by omega]

@[simp] theorem operand_assemble (op kw : BitVec 4) (hasSpeed dir : Bool) (ch : BitVec 2) (operand : Operand) :
    (assemble op kw hasSpeed dir ch operand).operand = operand := by
  apply BitVec.eq_of_getLsbD_eq
  intro i hi
  simp only [Descriptor.operand, BitVec.getLsbD_extractLsb', getLsbD_assemble]
  simp [hi]

/-! ### The operands of DRIVE_VEC and DRIVE_KW, and the words a host encodes -/

theorem getLsbD_vectorOperand (a b : Int) (i : Nat) :
    (vectorOperand a b).getLsbD i =
      if i < 16 then (BitVec.ofInt 16 a).getLsbD i else (BitVec.ofInt 16 b).getLsbD (i - 16) := by
  change @BitVec.getLsbD (16 + 16) (BitVec.ofInt 16 b ++ BitVec.ofInt 16 a) i = _
  rw [BitVec.getLsbD_append]

theorem getLsbD_speedOperand (p : SpeedPair) (i : Nat) :
    (speedOperand p).getLsbD i =
      if i < 8 then p.a.getLsbD i else if i < 16 then p.b.getLsbD (i - 8) else false := by
  change @BitVec.getLsbD (16 + 8 + 8) (0#16 ++ p.b ++ p.a) i = _
  rw [BitVec.getLsbD_append, BitVec.getLsbD_append]
  by_cases h : i < 8
  · simp [h]
  · by_cases h' : i < 16
    · simp [h, h', show i - 8 < 8 by omega]
    · simp [h, h', show ¬ (i - 8 < 8) by omega]

theorem getLsbD_encodeMotor (x y : Bool) (p q : Byte) (i : Nat) :
    (encodeMotor x y p q).getLsbD i =
      if i < 8 then p.getLsbD i else if i < 16 then q.getLsbD (i - 8) else if i = 16 then y
      else if i = 17 then x else false := by
  change @BitVec.getLsbD (2 + 1 + 1 + 8 + 8) (0#2 ++ BitVec.ofBool x ++ BitVec.ofBool y ++ q ++ p) i = _
  rw [BitVec.getLsbD_append, BitVec.getLsbD_append, BitVec.getLsbD_append, BitVec.getLsbD_append]
  by_cases h : i < 8
  · simp [h]
  by_cases h1 : i < 16
  · simp [h, h1, show i - 8 < 8 by omega]
  by_cases h2 : i = 16
  · subst h2; simp
  by_cases h3 : i = 17
  · subst h3; simp
  · simp [h, h1, h2, h3, show ¬ (i - 8 < 8) by omega, show i - 8 - 8 ≠ 0 by omega, show i - 8 - 8 - 1 ≠ 0 by omega]

theorem encodeServo_eq (x y : Bool) (p q : Byte) : encodeServo x y p q = encodeMotor y x p q := rfl

@[simp] theorem vectorOperand_low (a b : Int) : (vectorOperand a b).extractLsb' 0 16 = BitVec.ofInt 16 a := by
  apply BitVec.eq_of_getLsbD_eq
  intro i hi
  rw [BitVec.getLsbD_extractLsb', getLsbD_vectorOperand]
  simp [hi]

@[simp] theorem vectorOperand_high (a b : Int) : (vectorOperand a b).extractLsb' 16 16 = BitVec.ofInt 16 b := by
  apply BitVec.eq_of_getLsbD_eq
  intro i hi
  rw [BitVec.getLsbD_extractLsb', getLsbD_vectorOperand]
  simp [hi]

@[simp] theorem speedOperand_a (p : SpeedPair) : (speedOperand p).extractLsb' 0 8 = p.a := by
  apply BitVec.eq_of_getLsbD_eq
  intro i hi
  rw [BitVec.getLsbD_extractLsb', getLsbD_speedOperand]
  simp [hi]

@[simp] theorem speedOperand_b (p : SpeedPair) : (speedOperand p).extractLsb' 8 8 = p.b := by
  apply BitVec.eq_of_getLsbD_eq
  intro i hi
  rw [BitVec.getLsbD_extractLsb', getLsbD_speedOperand]
  simp [hi, show 8 + i < 16 by omega]

end Sys2Proof
end

