-- ==== Sys2Proof/Laws/State.lean ====
section
/-! SUPPORT. One lemma per field per update of the state, so that no proof unfolds a record update. -/

namespace Sys2Proof.Machine

/-! ### `State.setSeq` -/

@[simp] theorem State.setSeq_cfg (s : State) (q : Seq) : (s.setSeq q).cfg = s.cfg := rfl
@[simp] theorem State.setSeq_rst (s : State) (q : Seq) : (s.setSeq q).rst = s.rst := rfl
@[simp] theorem State.setSeq_offers (s : State) (q : Seq) : (s.setSeq q).offers = s.offers := rfl
@[simp] theorem State.setSeq_rspReady (s : State) (q : Seq) : (s.setSeq q).rspReady = s.rspReady := rfl
@[simp] theorem State.setSeq_sinkGrant (s : State) (q : Seq) : (s.setSeq q).sinkGrant = s.sinkGrant := rfl
@[simp] theorem State.setSeq_angles (s : State) (q : Seq) : (s.setSeq q).angles = s.angles := rfl
@[simp] theorem State.setSeq_draws (s : State) (q : Seq) : (s.setSeq q).draws = s.draws := rfl
@[simp] theorem State.setSeq_seq (s : State) (q : Seq) : (s.setSeq q).seq = q := rfl
@[simp] theorem State.setSeq_sampled (s : State) (q : Seq) : (s.setSeq q).sampled = s.sampled := rfl
@[simp] theorem State.setSeq_trace (s : State) (q : Seq) : (s.setSeq q).trace = s.trace := rfl
@[simp] theorem State.setSeq_responses (s : State) (q : Seq) : (s.setSeq q).responses = s.responses := rfl
@[simp] theorem State.setSeq_view (s : State) (q : Seq) : (s.setSeq q).view = s.view := rfl

/-! ### `State.record` -/

@[simp] theorem State.record_cfg (s : State) (e : Event) : (s.record e).cfg = s.cfg := rfl
@[simp] theorem State.record_rst (s : State) (e : Event) : (s.record e).rst = s.rst := rfl
@[simp] theorem State.record_offers (s : State) (e : Event) : (s.record e).offers = s.offers := rfl
@[simp] theorem State.record_rspReady (s : State) (e : Event) : (s.record e).rspReady = s.rspReady := rfl
@[simp] theorem State.record_sinkGrant (s : State) (e : Event) : (s.record e).sinkGrant = s.sinkGrant := rfl
@[simp] theorem State.record_angles (s : State) (e : Event) : (s.record e).angles = s.angles := rfl
@[simp] theorem State.record_draws (s : State) (e : Event) : (s.record e).draws = s.draws := rfl
@[simp] theorem State.record_seq (s : State) (e : Event) : (s.record e).seq = s.seq := rfl
@[simp] theorem State.record_sampled (s : State) (e : Event) : (s.record e).sampled = s.sampled := rfl
@[simp] theorem State.record_trace (s : State) (e : Event) : (s.record e).trace = s.trace ++ [e] := rfl
@[simp] theorem State.record_responses (s : State) (e : Event) : (s.record e).responses = s.responses := rfl
@[simp] theorem State.record_view (s : State) (e : Event) : (s.record e).view = s.view.after e := rfl

/-! ### `State.useGrant` -/

@[simp] theorem State.useGrant_cfg (s : State) : (s.useGrant).cfg = s.cfg := rfl
@[simp] theorem State.useGrant_rst (s : State) : (s.useGrant).rst = s.rst := rfl
@[simp] theorem State.useGrant_offers (s : State) : (s.useGrant).offers = s.offers := rfl
@[simp] theorem State.useGrant_rspReady (s : State) : (s.useGrant).rspReady = s.rspReady := rfl
@[simp] theorem State.useGrant_sinkGrant (s : State) : (s.useGrant).sinkGrant = s.sinkGrant.map (· - 1) := rfl
@[simp] theorem State.useGrant_angles (s : State) : (s.useGrant).angles = s.angles := rfl
@[simp] theorem State.useGrant_draws (s : State) : (s.useGrant).draws = s.draws := rfl
@[simp] theorem State.useGrant_seq (s : State) : (s.useGrant).seq = s.seq := rfl
@[simp] theorem State.useGrant_sampled (s : State) : (s.useGrant).sampled = s.sampled := rfl
@[simp] theorem State.useGrant_trace (s : State) : (s.useGrant).trace = s.trace := rfl
@[simp] theorem State.useGrant_responses (s : State) : (s.useGrant).responses = s.responses := rfl
@[simp] theorem State.useGrant_view (s : State) : (s.useGrant).view = s.view := rfl

/-! ### `State.sample` -/

@[simp] theorem State.sample_cfg (s : State) (c : Command) (rest : List Command) : (s.sample c rest).cfg = s.cfg := rfl
@[simp] theorem State.sample_rst (s : State) (c : Command) (rest : List Command) : (s.sample c rest).rst = s.rst := rfl
@[simp] theorem State.sample_offers (s : State) (c : Command) (rest : List Command) : (s.sample c rest).offers = rest := rfl
@[simp] theorem State.sample_rspReady (s : State) (c : Command) (rest : List Command) : (s.sample c rest).rspReady = s.rspReady := rfl
@[simp] theorem State.sample_sinkGrant (s : State) (c : Command) (rest : List Command) : (s.sample c rest).sinkGrant = s.sinkGrant := rfl
@[simp] theorem State.sample_angles (s : State) (c : Command) (rest : List Command) : (s.sample c rest).angles = s.angles := rfl
@[simp] theorem State.sample_draws (s : State) (c : Command) (rest : List Command) : (s.sample c rest).draws = s.draws := rfl
@[simp] theorem State.sample_seq (s : State) (c : Command) (rest : List Command) : (s.sample c rest).seq = s.seq := rfl
@[simp] theorem State.sample_sampled (s : State) (c : Command) (rest : List Command) : (s.sample c rest).sampled = some c := rfl
@[simp] theorem State.sample_trace (s : State) (c : Command) (rest : List Command) : (s.sample c rest).trace = s.trace := rfl
@[simp] theorem State.sample_responses (s : State) (c : Command) (rest : List Command) : (s.sample c rest).responses = s.responses := rfl
@[simp] theorem State.sample_view (s : State) (c : Command) (rest : List Command) : (s.sample c rest).view = s.view := rfl

/-! ### `State.answer` -/

@[simp] theorem State.answer_cfg (s : State) (r : Response) : (s.answer r).cfg = s.cfg := rfl
@[simp] theorem State.answer_rst (s : State) (r : Response) : (s.answer r).rst = s.rst := rfl
@[simp] theorem State.answer_offers (s : State) (r : Response) : (s.answer r).offers = s.offers := rfl
@[simp] theorem State.answer_rspReady (s : State) (r : Response) : (s.answer r).rspReady = s.rspReady := rfl
@[simp] theorem State.answer_sinkGrant (s : State) (r : Response) : (s.answer r).sinkGrant = s.sinkGrant := rfl
@[simp] theorem State.answer_angles (s : State) (r : Response) : (s.answer r).angles = s.angles := rfl
@[simp] theorem State.answer_draws (s : State) (r : Response) : (s.answer r).draws = s.draws := rfl
@[simp] theorem State.answer_seq (s : State) (r : Response) : (s.answer r).seq = .idle := rfl
@[simp] theorem State.answer_sampled (s : State) (r : Response) : (s.answer r).sampled = none := rfl
@[simp] theorem State.answer_trace (s : State) (r : Response) : (s.answer r).trace = s.trace := rfl
@[simp] theorem State.answer_responses (s : State) (r : Response) : (s.answer r).responses = s.responses ++ [r] := rfl
@[simp] theorem State.answer_view (s : State) (r : Response) : (s.answer r).view = s.view := rfl

/-! ### `State.offer` -/

@[simp] theorem State.offer_cfg (s : State) (c : Command) : (s.offer c).cfg = s.cfg := rfl
@[simp] theorem State.offer_rst (s : State) (c : Command) : (s.offer c).rst = s.rst := rfl
@[simp] theorem State.offer_offers (s : State) (c : Command) : (s.offer c).offers = s.offers ++ [c] := rfl
@[simp] theorem State.offer_rspReady (s : State) (c : Command) : (s.offer c).rspReady = s.rspReady := rfl
@[simp] theorem State.offer_sinkGrant (s : State) (c : Command) : (s.offer c).sinkGrant = s.sinkGrant := rfl
@[simp] theorem State.offer_angles (s : State) (c : Command) : (s.offer c).angles = s.angles := rfl
@[simp] theorem State.offer_draws (s : State) (c : Command) : (s.offer c).draws = s.draws := rfl
@[simp] theorem State.offer_seq (s : State) (c : Command) : (s.offer c).seq = s.seq := rfl
@[simp] theorem State.offer_sampled (s : State) (c : Command) : (s.offer c).sampled = s.sampled := rfl
@[simp] theorem State.offer_trace (s : State) (c : Command) : (s.offer c).trace = s.trace := rfl
@[simp] theorem State.offer_responses (s : State) (c : Command) : (s.offer c).responses = s.responses := rfl
@[simp] theorem State.offer_view (s : State) (c : Command) : (s.offer c).view = s.view := rfl

/-! ### `State.driveReady` -/

@[simp] theorem State.driveReady_cfg (s : State) (b : Bool) : (s.driveReady b).cfg = s.cfg := rfl
@[simp] theorem State.driveReady_rst (s : State) (b : Bool) : (s.driveReady b).rst = s.rst := rfl
@[simp] theorem State.driveReady_offers (s : State) (b : Bool) : (s.driveReady b).offers = s.offers := rfl
@[simp] theorem State.driveReady_rspReady (s : State) (b : Bool) : (s.driveReady b).rspReady = b := rfl
@[simp] theorem State.driveReady_sinkGrant (s : State) (b : Bool) : (s.driveReady b).sinkGrant = s.sinkGrant := rfl
@[simp] theorem State.driveReady_angles (s : State) (b : Bool) : (s.driveReady b).angles = s.angles := rfl
@[simp] theorem State.driveReady_draws (s : State) (b : Bool) : (s.driveReady b).draws = s.draws := rfl
@[simp] theorem State.driveReady_seq (s : State) (b : Bool) : (s.driveReady b).seq = s.seq := rfl
@[simp] theorem State.driveReady_sampled (s : State) (b : Bool) : (s.driveReady b).sampled = s.sampled := rfl
@[simp] theorem State.driveReady_trace (s : State) (b : Bool) : (s.driveReady b).trace = s.trace := rfl
@[simp] theorem State.driveReady_responses (s : State) (b : Bool) : (s.driveReady b).responses = s.responses := rfl
@[simp] theorem State.driveReady_view (s : State) (b : Bool) : (s.driveReady b).view = s.view := rfl

/-! ### `State.grant` -/

@[simp] theorem State.grant_cfg (s : State) (g : Option Nat) : (s.grant g).cfg = s.cfg := rfl
@[simp] theorem State.grant_rst (s : State) (g : Option Nat) : (s.grant g).rst = s.rst := rfl
@[simp] theorem State.grant_offers (s : State) (g : Option Nat) : (s.grant g).offers = s.offers := rfl
@[simp] theorem State.grant_rspReady (s : State) (g : Option Nat) : (s.grant g).rspReady = s.rspReady := rfl
@[simp] theorem State.grant_sinkGrant (s : State) (g : Option Nat) : (s.grant g).sinkGrant = g := rfl
@[simp] theorem State.grant_angles (s : State) (g : Option Nat) : (s.grant g).angles = s.angles := rfl
@[simp] theorem State.grant_draws (s : State) (g : Option Nat) : (s.grant g).draws = s.draws := rfl
@[simp] theorem State.grant_seq (s : State) (g : Option Nat) : (s.grant g).seq = s.seq := rfl
@[simp] theorem State.grant_sampled (s : State) (g : Option Nat) : (s.grant g).sampled = s.sampled := rfl
@[simp] theorem State.grant_trace (s : State) (g : Option Nat) : (s.grant g).trace = s.trace := rfl
@[simp] theorem State.grant_responses (s : State) (g : Option Nat) : (s.grant g).responses = s.responses := rfl
@[simp] theorem State.grant_view (s : State) (g : Option Nat) : (s.grant g).view = s.view := rfl

/-! ### `State.fixAngles` -/

@[simp] theorem State.fixAngles_cfg (s : State) (as : List Byte) : (s.fixAngles as).cfg = s.cfg := rfl
@[simp] theorem State.fixAngles_rst (s : State) (as : List Byte) : (s.fixAngles as).rst = s.rst := rfl
@[simp] theorem State.fixAngles_offers (s : State) (as : List Byte) : (s.fixAngles as).offers = s.offers := rfl
@[simp] theorem State.fixAngles_rspReady (s : State) (as : List Byte) : (s.fixAngles as).rspReady = s.rspReady := rfl
@[simp] theorem State.fixAngles_sinkGrant (s : State) (as : List Byte) : (s.fixAngles as).sinkGrant = s.sinkGrant := rfl
@[simp] theorem State.fixAngles_angles (s : State) (as : List Byte) : (s.fixAngles as).angles = as := rfl
@[simp] theorem State.fixAngles_draws (s : State) (as : List Byte) : (s.fixAngles as).draws = s.draws := rfl
@[simp] theorem State.fixAngles_seq (s : State) (as : List Byte) : (s.fixAngles as).seq = s.seq := rfl
@[simp] theorem State.fixAngles_sampled (s : State) (as : List Byte) : (s.fixAngles as).sampled = s.sampled := rfl
@[simp] theorem State.fixAngles_trace (s : State) (as : List Byte) : (s.fixAngles as).trace = s.trace := rfl
@[simp] theorem State.fixAngles_responses (s : State) (as : List Byte) : (s.fixAngles as).responses = s.responses := rfl
@[simp] theorem State.fixAngles_view (s : State) (as : List Byte) : (s.fixAngles as).view = s.view := rfl

/-! ### `State.takeAngle` and `State.completed` -/

@[simp] theorem State.takeAngle_cfg (s : State) : s.takeAngle.cfg = s.cfg := by
  unfold State.takeAngle; split <;> rfl

@[simp] theorem State.takeAngle_rst (s : State) : s.takeAngle.rst = s.rst := by
  unfold State.takeAngle; split <;> rfl

@[simp] theorem State.takeAngle_offers (s : State) : s.takeAngle.offers = s.offers := by
  unfold State.takeAngle; split <;> rfl

@[simp] theorem State.takeAngle_rspReady (s : State) : s.takeAngle.rspReady = s.rspReady := by
  unfold State.takeAngle; split <;> rfl

@[simp] theorem State.takeAngle_sinkGrant (s : State) : s.takeAngle.sinkGrant = s.sinkGrant := by
  unfold State.takeAngle; split <;> rfl

@[simp] theorem State.takeAngle_seq (s : State) : s.takeAngle.seq = s.seq := by
  unfold State.takeAngle; split <;> rfl

@[simp] theorem State.takeAngle_sampled (s : State) : s.takeAngle.sampled = s.sampled := by
  unfold State.takeAngle; split <;> rfl

@[simp] theorem State.takeAngle_trace (s : State) : s.takeAngle.trace = s.trace := by
  unfold State.takeAngle; split <;> rfl

@[simp] theorem State.takeAngle_responses (s : State) : s.takeAngle.responses = s.responses := by
  unfold State.takeAngle; split <;> rfl

@[simp] theorem State.takeAngle_view (s : State) : s.takeAngle.view = s.view := by
  unfold State.takeAngle; split <;> rfl

theorem State.takeAngle_angles (s : State) : s.takeAngle.angles = s.angles.tail := by
  unfold State.takeAngle; split <;> simp_all

theorem State.takeAngle_draws (s : State) :
    s.takeAngle.draws = if s.angles = [] then s.draws + 1 else s.draws := by
  unfold State.takeAngle; split <;> simp_all

@[simp] theorem State.completed_cfg (s : State) (e : Event) : (s.completed e).cfg = s.cfg := by
  unfold State.completed; split <;> simp

@[simp] theorem State.completed_rst (s : State) (e : Event) : (s.completed e).rst = s.rst := by
  unfold State.completed; split <;> simp

@[simp] theorem State.completed_offers (s : State) (e : Event) : (s.completed e).offers = s.offers := by
  unfold State.completed; split <;> simp

@[simp] theorem State.completed_rspReady (s : State) (e : Event) : (s.completed e).rspReady = s.rspReady := by
  unfold State.completed; split <;> simp

@[simp] theorem State.completed_sinkGrant (s : State) (e : Event) : (s.completed e).sinkGrant = s.sinkGrant.map (· - 1) := by
  unfold State.completed; split <;> simp

@[simp] theorem State.completed_seq (s : State) (e : Event) : (s.completed e).seq = s.seq := by
  unfold State.completed; split <;> simp

@[simp] theorem State.completed_sampled (s : State) (e : Event) : (s.completed e).sampled = s.sampled := by
  unfold State.completed; split <;> simp

@[simp] theorem State.completed_trace (s : State) (e : Event) : (s.completed e).trace = s.trace ++ [e] := by
  unfold State.completed; split <;> simp

@[simp] theorem State.completed_responses (s : State) (e : Event) : (s.completed e).responses = s.responses := by
  unfold State.completed; split <;> simp

@[simp] theorem State.completed_view (s : State) (e : Event) : (s.completed e).view = s.view.after e := by
  unfold State.completed; split <;> simp

/-! ### `State.settleOutstanding` and `State.clearByReset` -/

@[simp] theorem State.settleOutstanding_cfg (s : State) : s.settleOutstanding.cfg = s.cfg := by
  unfold State.settleOutstanding; repeat' split
  all_goals rfl

@[simp] theorem State.settleOutstanding_rst (s : State) : s.settleOutstanding.rst = s.rst := by
  unfold State.settleOutstanding; repeat' split
  all_goals rfl

@[simp] theorem State.settleOutstanding_offers (s : State) : s.settleOutstanding.offers = s.offers := by
  unfold State.settleOutstanding; repeat' split
  all_goals rfl

@[simp] theorem State.settleOutstanding_rspReady (s : State) : s.settleOutstanding.rspReady = s.rspReady := by
  unfold State.settleOutstanding; repeat' split
  all_goals rfl

@[simp] theorem State.settleOutstanding_sinkGrant (s : State) : s.settleOutstanding.sinkGrant = s.sinkGrant := by
  unfold State.settleOutstanding; repeat' split
  all_goals rfl

@[simp] theorem State.settleOutstanding_angles (s : State) : s.settleOutstanding.angles = s.angles := by
  unfold State.settleOutstanding; repeat' split
  all_goals rfl

@[simp] theorem State.settleOutstanding_seq (s : State) : s.settleOutstanding.seq = s.seq := by
  unfold State.settleOutstanding; repeat' split
  all_goals rfl

@[simp] theorem State.settleOutstanding_sampled (s : State) : s.settleOutstanding.sampled = s.sampled := by
  unfold State.settleOutstanding; repeat' split
  all_goals rfl

@[simp] theorem State.settleOutstanding_responses (s : State) : s.settleOutstanding.responses = s.responses := by
  unfold State.settleOutstanding; repeat' split
  all_goals rfl

@[simp] theorem State.clearByReset_cfg (s : State) : s.clearByReset.cfg = s.cfg := by
  simp [State.clearByReset]

@[simp] theorem State.clearByReset_rst (s : State) : s.clearByReset.rst = s.rst := by
  simp [State.clearByReset]

@[simp] theorem State.clearByReset_offers (s : State) : s.clearByReset.offers = s.offers := by
  simp [State.clearByReset]

@[simp] theorem State.clearByReset_rspReady (s : State) : s.clearByReset.rspReady = s.rspReady := by
  simp [State.clearByReset]

@[simp] theorem State.clearByReset_sinkGrant (s : State) : s.clearByReset.sinkGrant = s.sinkGrant := by
  simp [State.clearByReset]

@[simp] theorem State.clearByReset_angles (s : State) : s.clearByReset.angles = s.angles := by
  simp [State.clearByReset]

@[simp] theorem State.clearByReset_seq (s : State) : s.clearByReset.seq = .idle := by
  simp [State.clearByReset]

@[simp] theorem State.clearByReset_sampled (s : State) : s.clearByReset.sampled = none := by
  simp [State.clearByReset]

@[simp] theorem State.clearByReset_responses (s : State) : s.clearByReset.responses = s.responses := by
  simp [State.clearByReset]

@[simp] theorem State.clearByReset_draws (s : State) :
    s.clearByReset.draws = s.settleOutstanding.draws := rfl

@[simp] theorem State.clearByReset_trace (s : State) :
    s.clearByReset.trace = s.settleOutstanding.trace := rfl

@[simp] theorem State.clearByReset_view (s : State) :
    s.clearByReset.view = s.settleOutstanding.view := rfl

/-! ### `State.driveReset` -/

@[simp] theorem State.driveReset_true (s : State) : s.driveReset true = { s.clearByReset with rst := true } := rfl
@[simp] theorem State.driveReset_false (s : State) : s.driveReset false = { s with rst := false } := rfl

@[simp] theorem State.driveReset_rst (s : State) (b : Bool) : (s.driveReset b).rst = b := by cases b <;> rfl
@[simp] theorem State.driveReset_cfg (s : State) (b : Bool) : (s.driveReset b).cfg = s.cfg := by cases b <;> simp
@[simp] theorem State.driveReset_offers (s : State) (b : Bool) : (s.driveReset b).offers = s.offers := by cases b <;> simp
@[simp] theorem State.driveReset_rspReady (s : State) (b : Bool) : (s.driveReset b).rspReady = s.rspReady := by cases b <;> simp
@[simp] theorem State.driveReset_sinkGrant (s : State) (b : Bool) : (s.driveReset b).sinkGrant = s.sinkGrant := by cases b <;> simp
@[simp] theorem State.driveReset_angles (s : State) (b : Bool) : (s.driveReset b).angles = s.angles := by cases b <;> simp
@[simp] theorem State.driveReset_responses (s : State) (b : Bool) : (s.driveReset b).responses = s.responses := by cases b <;> simp

/-- A block that is held in reset and already IDLE stays as it is. -/
theorem State.clearByReset_of_idle {s : State} (hq : s.seq = .idle) (hs : s.sampled = none) : s.clearByReset = s := by
  cases s; simp_all [State.clearByReset, State.settleOutstanding, State.outstanding]

end Sys2Proof.Machine
end

