-- ==== Sys2Proof/Laws/Perform.lean ====
section
/-! SUPPORT. What carrying out operations can do: `State.perform` one operation at a time, what it never changes, how it
ends, and its closed form for operations that read nothing. -/

namespace Sys2Proof.Machine

/-! ### Transient state and events -/

@[simp] theorem Op.commit_rsp (c : Config) (a : Byte) (t : Transient) (op : Op) : (op.commit c a t).rsp = t.rsp := by
  cases op with
  | enter s => cases s <;> rfl
  | sense s => cases s <;> rfl
  | _ => rfl

@[simp] theorem Transient.setLane_rsp (t : Transient) (s : Servo) (l : Lane) : (t.setLane s l).rsp = t.rsp := by
  cases s <;> rfl

@[simp] theorem Transient.lane_setLane (t : Transient) (s : Servo) (l : Lane) : (t.setLane s l).lane s = l := by
  cases s <;> rfl

theorem Transient.lane_setLane_ne (t : Transient) {s s' : Servo} (l : Lane) (h : s' ≠ s) :
    (t.setLane s l).lane s' = t.lane s' := by
  cases s <;> cases s' <;> first | rfl | exact absurd rfl h

@[simp] theorem viewOf_append (es : List Event) (e : Event) : viewOf (es ++ [e]) = (viewOf es).after e := by
  simp [viewOf]

/-- The operation takes an angle from the sink. -/
def Op.reads : Op → Bool
  | .enter _ => true
  | .sense _ => true
  | .dir _ _ => false
  | .duty _ _ => false
  | .ramp _ _ => false
  | .frameSleep _ => false
  | .nudge _ _ => false
  | .stepSleep => false
  | .sweep _ _ => false
  | .sweepSleep _ => false

theorem Op.commit_of_not_reads {op : Op} (h : op.reads = false) (c : Config) (a : Byte) (t : Transient) :
    op.commit c a t = t := by
  cases op <;> first | rfl | simp [Op.reads] at h

/-- The event of an operation that reads nothing: the angle plays no part. -/
theorem Op.event_of_not_reads {op : Op} (h : op.reads = false) (c : Config) (a b : Byte) (t : Transient) :
    (op.request c t).event a = (op.request c t).event b := by
  cases op <;> first | rfl | simp [Op.reads] at h

@[simp] theorem Op.event_isRead (op : Op) (c : Config) (a : Byte) (t : Transient) :
    ((op.request c t).event a).isRead = op.reads := by
  cases op <;> rfl

/-! ### One operation at a time -/

@[simp] theorem State.perform_nil (t : Transient) (s : State) : s.perform [] t = s.setSeq (.resp t.rsp) := rfl

theorem State.perform_stalled {s : State} (h : s.stalled = true) (op : Op) (rest : List Op) (t : Transient) :
    s.perform (op :: rest) t = s.setSeq (.busy t (op :: rest) false) := by
  simp [State.perform, h]

theorem State.perform_cons {s : State} (h : s.stalled = false) (op : Op) (rest : List Op) (t : Transient) :
    s.perform (op :: rest) t =
      (s.completed ((op.request s.cfg t).event s.nextAngle)).perform rest (op.commit s.cfg s.nextAngle t) := by
  simp [State.perform, h]

theorem State.useGrant_of_none {s : State} (h : s.sinkGrant = none) : s.useGrant = s := by
  cases s; simp_all [State.useGrant]

theorem State.not_stalled {s : State} (h : s.sinkGrant = none) : s.stalled = false := by simp [State.stalled, h]

/-- Where the sink completes every request, a completion is the event and the angle it took. -/
theorem State.completed_of_none {s : State} (h : s.sinkGrant = none) (e : Event) :
    s.completed e = (if e.isRead then s.takeAngle else s).record e := by
  exact State.useGrant_of_none (by split <;> simp [h])

/-! ### The phase before plays no part -/

@[simp] theorem State.takeAngle_setSeq (s : State) (q : Seq) : (s.setSeq q).takeAngle = s.takeAngle.setSeq q := by
  unfold State.takeAngle; cases h : s.angles <;> simp [State.setSeq, h]

@[simp] theorem State.completed_setSeq (s : State) (q : Seq) (e : Event) :
    (s.setSeq q).completed e = (s.completed e).setSeq q := by
  unfold State.completed; split
  · rw [State.takeAngle_setSeq]; rfl
  · rfl

/-- Performing depends on the operations, not on the phase the block is in. -/
@[simp] theorem State.perform_setSeq (s : State) (q : Seq) (todo : List Op) (t : Transient) :
    (s.setSeq q).perform todo t = s.perform todo t := by
  induction todo generalizing t s with
  | nil => rfl
  | cons op rest ih =>
    unfold State.perform
    split
    · next h => rw [if_pos (show s.stalled = true from h)]; rfl
    · next h => rw [if_neg (show ¬ s.stalled = true from h), State.completed_setSeq, ih]; rfl

/-! ### What performing never changes -/

theorem State.perform_induct {P : State → Prop} (hq : ∀ s q, P s → P (s.setSeq q)) (hc : ∀ s e, P s → P (s.completed e)) :
    ∀ (todo : List Op) (t : Transient) (s : State), P s → P (s.perform todo t)
  | [], _, s, h => hq s _ h
  | op :: rest, t, s, h => by
    unfold State.perform
    split
    · exact hq s _ h
    · exact State.perform_induct hq hc rest _ _ (hc s _ h)

@[simp] theorem State.perform_cfg (s : State) (todo : List Op) (t : Transient) : (s.perform todo t).cfg = s.cfg :=
  State.perform_induct (P := fun x => x.cfg = s.cfg) (by simp) (by simp) todo t s rfl

@[simp] theorem State.perform_rst (s : State) (todo : List Op) (t : Transient) : (s.perform todo t).rst = s.rst :=
  State.perform_induct (P := fun x => x.rst = s.rst) (by simp) (by simp) todo t s rfl

@[simp] theorem State.perform_offers (s : State) (todo : List Op) (t : Transient) :
    (s.perform todo t).offers = s.offers :=
  State.perform_induct (P := fun x => x.offers = s.offers) (by simp) (by simp) todo t s rfl

@[simp] theorem State.perform_rspReady (s : State) (todo : List Op) (t : Transient) :
    (s.perform todo t).rspReady = s.rspReady :=
  State.perform_induct (P := fun x => x.rspReady = s.rspReady) (by simp) (by simp) todo t s rfl

@[simp] theorem State.perform_sampled (s : State) (todo : List Op) (t : Transient) :
    (s.perform todo t).sampled = s.sampled :=
  State.perform_induct (P := fun x => x.sampled = s.sampled) (by simp) (by simp) todo t s rfl

@[simp] theorem State.perform_responses (s : State) (todo : List Op) (t : Transient) :
    (s.perform todo t).responses = s.responses :=
  State.perform_induct (P := fun x => x.responses = s.responses) (by simp) (by simp) todo t s rfl

/-- A sink that completes every request keeps doing so. -/
theorem State.perform_sinkGrant {s : State} (h : s.sinkGrant = none) (todo : List Op) (t : Transient) :
    (s.perform todo t).sinkGrant = none :=
  State.perform_induct (P := fun x => x.sinkGrant = none) (by simp) (by simp +contextual) todo t s h

/-- Performing only adds events to the trace. -/
theorem State.perform_trace (s : State) (todo : List Op) (t : Transient) :
    ∃ es, (s.perform todo t).trace = s.trace ++ es :=
  State.perform_induct (P := fun x => ∃ es, x.trace = s.trace ++ es) (by simp)
    (fun x e h => by obtain ⟨es, h⟩ := h; exact ⟨es ++ [e], by simp [h]⟩) todo t s ⟨[], by simp⟩

/-- Performing keeps the sink view what the trace leaves. -/
theorem State.perform_view {s : State} (h : s.view = viewOf s.trace) (todo : List Op) (t : Transient) :
    (s.perform todo t).view = viewOf (s.perform todo t).trace :=
  State.perform_induct (P := fun x => x.view = viewOf x.trace) (by simp +contextual) (by simp +contextual) todo t s h

/-! ### How performing ends -/

/-- Either the response is offered, or the block is BUSY at a rest of the operations that is not empty. -/
theorem State.perform_seq (todo : List Op) (t : Transient) (s : State) :
    (s.perform todo t).seq = .resp t.rsp ∨
      ∃ t' op rest, (s.perform todo t).seq = .busy t' (op :: rest) false ∧ t'.rsp = t.rsp ∧ (op :: rest) <:+ todo := by
  induction todo generalizing t s with
  | nil => exact .inl rfl
  | cons op rest ih =>
    unfold State.perform
    split
    · exact .inr ⟨t, op, rest, rfl, rfl, List.suffix_refl _⟩
    · rcases ih (op.commit s.cfg s.nextAngle t) (s.completed ((op.request s.cfg t).event s.nextAngle)) with
        h | ⟨t', op', rest', h, hr, hs⟩
      · exact .inl (by simpa using h)
      · exact .inr ⟨t', op', rest', h, by simpa using hr, hs.trans (List.suffix_cons op rest)⟩

/-- A sink that completes every request lets the command finish. -/
theorem State.perform_seq_none {s : State} (h : s.sinkGrant = none) (todo : List Op) (t : Transient) :
    (s.perform todo t).seq = .resp t.rsp := by
  induction todo generalizing t s with
  | nil => rfl
  | cons op rest ih =>
    rw [State.perform_cons (State.not_stalled h)]
    simpa using ih (s := s.completed ((op.request s.cfg t).event s.nextAngle)) (by simp [h]) (op.commit s.cfg s.nextAngle t)

/-! ### Closed form without reads -/

/-- Operations that read nothing, a sink that completes everything: the events are the operations' own, in order. -/
theorem State.perform_reads_nothing {s : State} (hg : s.sinkGrant = none) (t : Transient) (todo : List Op)
    (h : ∀ op ∈ todo, op.reads = false) :
    s.perform todo t = s.finish t.rsp (todo.map fun op => (op.request s.cfg t).event 0) := by
  induction todo generalizing s with
  | nil => simp [State.finish, State.setSeq]
  | cons op rest ih =>
    have hop : op.reads = false := h op (by simp)
    rw [State.perform_cons (State.not_stalled hg), Op.commit_of_not_reads hop,
      ih (by simp [hg]) (fun o ho => h o (by simp [ho]))]
    rw [Op.event_of_not_reads hop s.cfg s.nextAngle 0]
    rw [State.completed_of_none hg]
    simp [State.finish, State.record, hop]

/-- An entry read, a sink that completes everything: the lane is entered with the next angle. -/
theorem State.perform_enter {s : State} (hg : s.sinkGrant = none) (t : Transient) (c : Servo) (rest : List Op) :
    s.perform (.enter c :: rest) t =
      (s.takeAngle.record (.read c s.nextAngle)).perform rest
        (t.setLane c (laneEntered s.cfg (targetByte t.rsp.word c) s.nextAngle)) := by
  rw [State.perform_cons (State.not_stalled hg)]
  rw [State.completed_of_none hg]
  rfl

/-- The read of the step variant, a sink that completes everything. -/
theorem State.perform_sense {s : State} (hg : s.sinkGrant = none) (t : Transient) (c : Servo) (rest : List Op) :
    s.perform (.sense c :: rest) t =
      (s.takeAngle.record (.read c s.nextAngle)).perform rest
        (t.setLane c { t.lane c with cur := s.nextAngle }) := by
  rw [State.perform_cons (State.not_stalled hg)]
  rw [State.completed_of_none hg]
  rfl

end Sys2Proof.Machine
end

