-- ==== Sys2Proof/Laws/Exec.lean ====
section
/-! SUPPORT. What a command and a step can do, said once: every meaning is one acceptance of a response and operations,
and a step is one of six moves. -/

namespace Sys2Proof.Machine

/-! ### Under a legal configuration -/

/-- WORD_BITS is 20, so the masked word is bits 19:0 of its input value (R63). -/
theorem wordOf_legal {c : Config} (hl : configLegal c = true) (v : Operand) : wordOf c v = v.extractLsb' 0 20 := by
  have hw : c.wordBits = 20 := by simp only [configLegal, decide_eq_true_eq] at hl; exact hl.1
  apply BitVec.eq_of_toNat_eq
  simp [wordOf, hw, BitVec.extractLsb'_toNat]

/-! ### Acceptance -/

theorem State.cmdReady_iff (s : State) : s.cmdReady = true ↔ s.seq = .idle ∧ s.rst = false := by
  simp [State.cmdReady]

theorem State.accept_ready {s : State} (hl : configLegal s.cfg = true) (hr : s.cmdReady = true) (r : Response)
    (todo : List Op) : s.accept r todo = .next (s.perform todo (.start r)) := by
  simp [State.accept, hl, hr]

theorem State.accept_waits {s : State} (hl : configLegal s.cfg = true) (hr : s.cmdReady = false) (r : Response)
    (todo : List Op) : s.accept r todo = .next s := by
  simp [State.accept, hl, hr]

theorem State.accept_illegal {s : State} (hl : configLegal s.cfg = false) (r : Response) (todo : List Op) :
    s.accept r todo = .fault .illegalConfiguration := by
  simp [State.accept, hl]

/-- If an acceptance answers a next state, the configuration is legal and the command was carried out or waits. -/
theorem State.accept_next {s t : State} {r : Response} {todo : List Op} (h : s.accept r todo = .next t) :
    configLegal s.cfg = true ∧
      (s.cmdReady = true ∧ t = s.perform todo (.start r) ∨ s.cmdReady = false ∧ t = s) := by
  unfold State.accept at h
  split at h
  · next hl =>
    split at h
    · next hr => exact ⟨hl, .inl ⟨hr, by simpa using h.symm⟩⟩
    · next hr => exact ⟨hl, .inr ⟨by simpa using hr, by simpa using h.symm⟩⟩
  · simp at h

/-! ### Every meaning is an acceptance -/

/-- The response and the operations of a motor word. -/
def motorProgram (c : Config) (v : Operand) : Response × List Op :=
  (wordResponse .ok (wordOf c v), motorOps (wordOf c v))

/-- The response and the operations of a servo word. -/
def servoProgram (c : Config) (v : Operand) : Response × List Op :=
  if wordAct1 (wordOf c v) || wordAct2 (wordOf c v) then (wordResponse .ok (wordOf c v), servoOps c (wordOf c v))
  else (wordResponse .ignoredNoChannel (wordOf c v), [])

/-- What a hex command does with its parse result. -/
def hexProgram (c : Config) (h : HexSeq) (f : Operand → Response × List Op) : Response × List Op :=
  match parseHex c h with
  | none => (plainResponse .ignoredLength, [])
  | some value => f (parsedOperand value)

/-- What a command with a channel select does. -/
def channelProgram (ch : ChannelSel) (f : Servo → List Op) : Response × List Op :=
  match ch with
  | .noChannel _ => (plainResponse .ignoredChannel, [])
  | .channel s => (plainResponse .ok, f s)

/-- The response and the operations of a command. -/
def program (c : Config) : Instr → Response × List Op
  | .decode v => (wordResponse .ok (wordOf c v), [])
  | .parseHex h => hexProgram c h fun v => (wordResponse .ok (wordOf c v), [])
  | .motorRaw v => motorProgram c v
  | .motorHex h => hexProgram c h (motorProgram c)
  | .driveKw k speeds =>
    (plainResponse (keywordPlan c k speeds).1, (keywordPlan c k speeds).2.flatMap (primitiveOps c))
  | .driveVec a b =>
    if componentInRange c a && componentInRange c b then
      (plainResponse .ok, (vectorPrimitives c a b).flatMap (primitiveOps c))
    else (plainResponse .rejectedRange, [])
  | .servoRaw v => servoProgram c v
  | .servoHex h => hexProgram c h (servoProgram c)
  | .servoStep ch up => channelProgram ch fun s => stepOps s up
  | .servoSweep ch up => channelProgram ch fun s => sweepOps c s up
  | .reserved0 => (plainResponse .ignoredOpcode, [])
  | .reservedB => (plainResponse .ignoredOpcode, [])
  | .reservedC => (plainResponse .ignoredOpcode, [])
  | .reservedD => (plainResponse .ignoredOpcode, [])
  | .reservedE => (plainResponse .ignoredOpcode, [])
  | .reservedF => (plainResponse .ignoredOpcode, [])

theorem runMotorWord_eq_accept (v : Operand) (s : State) :
    runMotorWord v s = s.accept (motorProgram s.cfg v).1 (motorProgram s.cfg v).2 := rfl

theorem runServoWord_eq_accept (v : Operand) (s : State) :
    runServoWord v s = s.accept (servoProgram s.cfg v).1 (servoProgram s.cfg v).2 := by
  unfold runServoWord servoProgram; split <;> rfl

/-- Every meaning accepts the command's response and operations. -/
theorem exec_eq_accept (i : Instr) (s : State) :
    exec i s = s.accept (program s.cfg i).1 (program s.cfg i).2 := by
  cases i with
  | parseHex h => cases hp : parseHex s.cfg h <;> simp [exec, execParseHex, program, hexProgram, hp]
  | motorHex h => cases hp : parseHex s.cfg h <;> simp [exec, execMotorHex, program, hexProgram, hp, runMotorWord_eq_accept]
  | servoRaw v => exact runServoWord_eq_accept v s
  | servoHex h => cases hp : parseHex s.cfg h <;> simp [exec, execServoHex, program, hexProgram, hp, runServoWord_eq_accept]
  | driveVec a b => simp only [exec, execDriveVec, program]; split <;> rfl
  | servoStep ch up => cases ch <;> rfl
  | servoSweep ch up => cases ch <;> rfl
  | _ => rfl

/-- A ready block carries a command out to its end. -/
theorem exec_ready {s : State} (h : s.Ready) (i : Instr) :
    exec i s = .next (s.perform (program s.cfg i).2 (.start (program s.cfg i).1)) := by
  rw [exec_eq_accept, State.accept_ready h.legal (by simp [State.cmdReady, h.idle, h.rst])]

/-! ### A step -/

/-- One step more of a run, where the step answers a next state. -/
theorem run_next {M : Host.Core} {k : Nat} {s t : M.State} (h : M.step s = .next t) : M.run (k + 1) s = M.run k t := by
  show (match M.step s with | .next s' => M.run k s' | .fault r => .fault r | .refused r => .refused r) = _
  rw [h]

/-- If a step answers a next state, the configuration is legal and the step is one of these moves. -/
theorem step_cases {s t : State} (h : step s = .next t) :
    configLegal s.cfg = true ∧
      (s.rst = true ∧ t = s.clearByReset ∨
        s.rst = false ∧
          (s.seq = .idle ∧ s.offers = [] ∧ t = s ∨
            (∃ c rest, s.seq = .idle ∧ s.offers = c :: rest ∧ exec c.instr (s.sample c rest) = .next t) ∨
            (∃ tr todo issued, s.seq = .busy tr todo issued ∧ t = s.goOn tr todo) ∨
            (∃ r, s.seq = .resp r ∧ s.rspReady = true ∧ t = s.answer r) ∨
            (∃ r, s.seq = .resp r ∧ s.rspReady = false ∧ t = s))) := by
  unfold step at h
  split at h
  · next hl =>
    refine ⟨hl, ?_⟩
    split at h
    · next hr => exact .inl ⟨hr, by simpa using h.symm⟩
    · next hr =>
      refine .inr ⟨by simpa using hr, ?_⟩
      split at h
      · next hq =>
        split at h
        · next ho => exact .inl ⟨hq, ho, by simpa using h.symm⟩
        · next c rest ho => exact .inr (.inl ⟨c, rest, hq, ho, h⟩)
      · next tr todo issued hq => exact .inr (.inr (.inl ⟨tr, todo, issued, hq, by simpa using h.symm⟩))
      · next r hq =>
        split at h
        · next hy => exact .inr (.inr (.inr (.inl ⟨r, hq, hy, by simpa using h.symm⟩)))
        · next hy => exact .inr (.inr (.inr (.inr ⟨r, hq, by simpa using hy, by simpa using h.symm⟩)))
  · simp at h

/-- A command in flight that goes on either holds its next request at the sink or performs what is left. -/
theorem State.goOn_cases (s : State) (t : Transient) (todo : List Op) :
    (s.stalled = true ∧ todo ≠ [] ∧ s.goOn t todo = s.setSeq (.busy t todo true)) ∨ s.goOn t todo = s.perform todo t := by
  unfold State.goOn
  split
  · next h => exact .inl ⟨by simp_all, by simp_all, rfl⟩
  · exact .inr rfl

/-- What a reset does to the trace and the view: nothing, or the outstanding write is recorded. -/
theorem State.settleOutstanding_cases (s : State) :
    (s.settleOutstanding.trace = s.trace ∧ s.settleOutstanding.view = s.view) ∨
      ∃ r, s.outstanding = some r ∧ r.isWrite = true ∧ s.settleOutstanding.trace = s.trace ++ [r.event 0] ∧
        s.settleOutstanding.view = s.view.after (r.event 0) := by
  unfold State.settleOutstanding
  split
  · exact .inl ⟨rfl, rfl⟩
  · next r hr =>
    split
    · next hw =>
      split
      · exact .inr ⟨r, hr, hw, rfl, rfl⟩
      · exact .inl ⟨rfl, rfl⟩
    · exact .inl ⟨rfl, rfl⟩

end Sys2Proof.Machine
end

