-- ==== Sys2Proof/Laws/PerInstr.lean ====
section
/-! SUPPORT. Laws of the commands as syntax, one lemma per constructor. -/

namespace Sys2Proof.Laws.ReservedBitsZero

/-- The encoder leaves descriptor bits 51:32 zero (R73). -/
def Statement (i : Instr) : Prop := (encode i).desc.extractLsb' 32 20 = 0

/-- Bits 51:32 of an assembled descriptor are zero. -/
theorem assembled (op kw : BitVec 4) (hasSpeed dir : Bool) (ch : BitVec 2) (operand : Operand) :
    (assemble op kw hasSpeed dir ch operand).extractLsb' 32 20 = 0 := by
  apply BitVec.eq_of_getLsbD_eq
  intro i hi
  simp only [BitVec.getLsbD_extractLsb', getLsbD_assemble]
  simp [show ¬ (32 + i < 32) by omega, show 32 + i < 52 by omega]

theorem decode (v : Operand) : Statement (.decode v) := assembled _ _ _ _ _ _
theorem parseHex (c : HexSeq) : Statement (.parseHex c) := assembled _ _ _ _ _ _
theorem motorRaw (v : Operand) : Statement (.motorRaw v) := assembled _ _ _ _ _ _
theorem motorHex (c : HexSeq) : Statement (.motorHex c) := assembled _ _ _ _ _ _

theorem driveKw (k : KwCode) (speeds : Option SpeedPair) : Statement (.driveKw k speeds) := by
  cases speeds <;> exact assembled _ _ _ _ _ _

theorem driveVec (a b : Int) : Statement (.driveVec a b) := assembled _ _ _ _ _ _
theorem servoRaw (v : Operand) : Statement (.servoRaw v) := assembled _ _ _ _ _ _
theorem servoHex (c : HexSeq) : Statement (.servoHex c) := assembled _ _ _ _ _ _
theorem servoStep (ch : ChannelSel) (up : Bool) : Statement (.servoStep ch up) := assembled _ _ _ _ _ _
theorem servoSweep (ch : ChannelSel) (up : Bool) : Statement (.servoSweep ch up) := assembled _ _ _ _ _ _
theorem reserved0 : Statement .reserved0 := assembled _ _ _ _ _ _
theorem reservedB : Statement .reservedB := assembled _ _ _ _ _ _
theorem reservedC : Statement .reservedC := assembled _ _ _ _ _ _
theorem reservedD : Statement .reservedD := assembled _ _ _ _ _ _
theorem reservedE : Statement .reservedE := assembled _ _ _ _ _ _
theorem reservedF : Statement .reservedF := assembled _ _ _ _ _ _

end Sys2Proof.Laws.ReservedBitsZero
end

