-- ==== Sys2Proof/Tests/Slice0.lean ====
section
/-! SUPPORT. The model's own tests: ill-formed commands are refused; a word of each operation decodes as the spec writes
it; one or two single steps of each command with results from spec/95_test_vectors.md; reset; and, for each obligation
with hypotheses, a witness that meets them. -/

namespace Sys2Proof.Tests

open Sys2Proof.Machine Sys2Proof.Claims

/-! ### Well-formedness -/

theorem test_wf_refuses_low_keyword_code : (Instr.driveKw (.unrecognized 8) none).wf = false := by decide
theorem test_wf_accepts_keyword_code : (Instr.driveKw (.unrecognized 9) none).wf = true := by decide
theorem test_wf_refuses_channel_code_1 : (Instr.servoStep (.noChannel 1) true).wf = false := by decide
theorem test_wf_refuses_channel_code_2 : (Instr.servoSweep (.noChannel 2) true).wf = false := by decide
theorem test_wf_accepts_channel_codes :
    (Instr.servoStep (.noChannel 0) true).wf = true ∧ (Instr.servoSweep (.noChannel 3) true).wf = true := by decide
theorem test_wf_refuses_wide_component :
    (Instr.driveVec 32768 0).wf = false ∧ (Instr.driveVec 0 (-32769)).wf = false := by decide
theorem test_wf_accepts_extreme_components : (Instr.driveVec (-32768) 32767).wf = true := by decide

/-! ### Decoding: words written out from R54 to R62 and spec/95_test_vectors.md -/

/-- V-D4; and V-D5, with every bit the operation does not read set. -/
theorem test_decode_decode : decode 0x10000000FFF3A0A0 [] = .decode 0xFFF3A0A0 ∧
    decode 0x1F3FFFFF00012345 [0x31] = .decode 0x12345 := by decide
/-- S5: "G1". -/
theorem test_decode_parseHex : decode 0x2000000000000000 [0x47, 0x31] = .parseHex [0x47, 0x31] := by decide
/-- V-M1. -/
theorem test_decode_motorRaw : decode 0x300000000003FFFF [] = .motorRaw 0x3FFFF := by decide
/-- Program 1, step 4: "12345". -/
theorem test_decode_motorHex : decode 0x4000000000000000 [0x31, 0x32, 0x33, 0x34, 0x35] =
    .motorHex [0x31, 0x32, 0x33, 0x34, 0x35] := by decide
/-- V-K5: diagonalBackwardLeft, 200, 180; and V-K6: kw12. -/
theorem test_decode_driveKw : decode 0x578000000000B4C8 [] = .driveKw (.known .diagonalBackwardLeft) (some ⟨200, 180⟩) ∧
    decode 0x5C00000000000000 [] = .driveKw (.unrecognized 12) none := by decide
/-- V-V4: 200, -150; and V-V7: -32768, 0. -/
theorem test_decode_driveVec : decode 0x60000000FF6A00C8 [] = .driveVec 200 (-150) ∧
    decode 0x6000000000008000 [] = .driveVec (-32768) 0 := by decide
/-- V-S1. -/
theorem test_decode_servoRaw : decode 0x700000000003A0A0 [] = .servoRaw 0x3A0A0 := by decide
/-- Program 3, step 5: "1001E". -/
theorem test_decode_servoHex : decode 0x8000000000000000 [0x31, 0x30, 0x30, 0x31, 0x45] =
    .servoHex [0x31, 0x30, 0x30, 0x31, 0x45] := by decide
/-- V-T1, V-T5. -/
theorem test_decode_servoStep : decode 0x9020000000000000 [] = .servoStep (.channel .two) false ∧
    decode 0x9040000000000000 [] = .servoStep (.noChannel 0) true := by decide
/-- V-W4, V-W3. -/
theorem test_decode_servoSweep : decode 0xA050000000000000 [] = .servoSweep (.channel .one) true ∧
    decode 0xA030000000000000 [] = .servoSweep (.noChannel 3) false := by decide
/-- V-D14; and all the other bits set. -/
theorem test_decode_reserved0 : decode 0x0000000000000000 [] = .reserved0 ∧ decode 0x0FFFFFFFFFFFFFFF [0x41] = .reserved0 := by decide
theorem test_decode_reservedB : decode 0xB000000000000000 [] = .reservedB := by decide
theorem test_decode_reservedC : decode 0xC000000000000000 [] = .reservedC := by decide
theorem test_decode_reservedD : decode 0xD000000000000000 [] = .reservedD := by decide
theorem test_decode_reservedE : decode 0xE000000000000000 [] = .reservedE := by decide
/-- Program 3, step 6. -/
theorem test_decode_reservedF : decode 0xF000000000000000 [] = .reservedF := by decide

/-- The host's question: a whole row, and a word wider than it says it is. -/
theorem test_decodeTableWord : decodeTableWord 64 0x588000000000C8C8 = some (.driveKw (.known .stop) (some ⟨200, 200⟩)) ∧
    decodeTableWord 8 0x100 = none ∧ decodeTableWord 8 0xFF = some .reserved0 := by decide

/-- Text of R74 and R75: a string, a raw keyword code, a comment, a pseudo-command, and text the syntax does not have. -/
theorem test_text_string : assembleText "PARSEHEX \"G1\" ; one" = some [⟨0x2000000000000000, [0x47, 0x31]⟩] := by decide
theorem test_text_keyword : assembleText "DRIVE_KW kw12" = some [⟨0x5C00000000000000, []⟩] ∧
    assembleText "DRIVE_KW diagonalForwardRight, 200, 180" = some [⟨0x548000000000B4C8, []⟩] := by decide
/-- A `;` inside a string is a character of it (log 16). -/
theorem test_text_semicolon : assembleText "PARSEHEX \"1;2\" ; \"" = some [⟨0x2000000000000000, [0x31, 0x3B, 0x32]⟩] := by decide
theorem test_text_pseudo : assembleText "SERVO_MOVE 160, 160" = some [⟨0x700000000003A0A0, []⟩] ∧
    assembleText "ALL_OFF" = some [⟨0x3000000000000000, []⟩] := by decide
theorem test_text_refused : assembleText "DRIVE_KW stop, 1" = none ∧ assembleText "MOTOR_RAW 0x100000000" = none := by decide

/-! ### Single steps, with results from spec/95_test_vectors.md -/

/-- The example values of the keyword vectors, and a duration for each delay. -/
def exampleConfig : Config :=
  { Config.document with
    frameDelay := ⟨1⟩, stepDelay := ⟨2⟩, sweepDelay := ⟨3⟩, fix1 := 30, fix2 := 50, defaultSpeedA := 150, defaultSpeedB := 150 }

/-- A ready block with that configuration whose sink answers READs with `as`. -/
def block (as : List Byte) : State := { State.powerUp exampleConfig with angles := as }

/-- The trace and the response of a command. -/
def outcome (i : Instr) (s : State) : Option (List Event × Option Response) :=
  match exec i s with
  | .next t => some (t.trace, t.rspRecord)
  | .fault _ => none
  | .refused _ => none

/-- Of a long trace, the length, the first pulse and the last event but one, and the status. -/
def ends (i : Instr) (s : State) : Option (Nat × Option Event × Option Event × Option Status) :=
  match exec i s with
  | .next t => some (t.trace.length, (t.trace.filter fun e => !e.isRead).head?, t.trace.dropLast.getLast?,
      t.rspRecord.map Response.status)
  | .fault _ => none
  | .refused _ => none

/-- V-D4. -/
theorem test_decode_masks : outcome (.decode 0xFFF3A0A0) (block []) = some ([], some ⟨.ok, 0x3A0A0, 3, 0xA0, 0xA0⟩) := by decide
/-- V-D2. -/
theorem test_decode_all_ones : outcome (.decode 0xFFFFF) (block []) = some ([], some ⟨.ok, 0xFFFFF, 0xF, 0xFF, 0xFF⟩) := by decide
/-- HEX_MAX_LEN is a parameter (R6): with 2, "12" is accepted and "123" is not. -/
theorem test_parseHex_parameter :
    outcome (.parseHex [0x31, 0x32]) { block [] with cfg := { exampleConfig with hexMaxLen := 2 } } =
      some ([], some ⟨.ok, 0x00012, 0, 0, 0x12⟩) ∧
    outcome (.parseHex [0x31, 0x32, 0x33]) { block [] with cfg := { exampleConfig with hexMaxLen := 2 } } =
      some ([], some ⟨.ignoredLength, 0, 0, 0, 0⟩) := by decide
/-- V-D8: "0x1F". -/
theorem test_parseHex_nonhex : outcome (.parseHex [0x30, 0x78, 0x31, 0x46]) (block []) =
    some ([], some ⟨.ok, 0x0001F, 0, 0, 0x1F⟩) := by decide
/-- S4: "123456". -/
theorem test_parseHex_long : outcome (.parseHex [0x31, 0x32, 0x33, 0x34, 0x35, 0x36]) (block []) =
    some ([], some ⟨.ignoredLength, 0, 0, 0, 0⟩) := by decide
/-- V-M2. -/
theorem test_motorRaw_lines : outcome (.motorRaw 0x100FF) (block []) =
    some ([.dir .a false, .dir .b true, .duty .a 255, .duty .b 0], some ⟨.ok, 0x100FF, 1, 0x00, 0xFF⟩) := by decide
/-- V-M4. -/
theorem test_motorRaw_unused_bits : outcome (.motorRaw 0xC0000) (block []) =
    some ([.dir .a false, .dir .b false, .duty .a 0, .duty .b 0], some ⟨.ok, 0xC0000, 0xC, 0, 0⟩) := by decide
/-- V-H4: "2G0A0". -/
theorem test_motorHex_nonhex : outcome (.motorHex [0x32, 0x47, 0x30, 0x41, 0x30]) (block []) =
    some ([.dir .a true, .dir .b false, .duty .a 160, .duty .b 0], some ⟨.ok, 0x200A0, 2, 0, 0xA0⟩) := by decide
/-- V-H2. -/
theorem test_motorHex_long : outcome (.motorHex [0x31, 0x32, 0x33, 0x34, 0x35, 0x36]) (block []) =
    some ([], some ⟨.ignoredLength, 0, 0, 0, 0⟩) := by decide
/-- V-K5. -/
theorem test_driveKw_offset : outcome (.driveKw (.known .diagonalBackwardLeft) (some ⟨200, 180⟩)) (block []) =
    some ([.dir .a false, .dir .b false, .duty .a 200, .duty .b 130], some ⟨.ok, 0, 0, 0, 0⟩) := by decide
/-- V-K7, V-K8. -/
theorem test_driveKw_range : outcome (.driveKw (.known .turnRight) (some ⟨20, 20⟩)) (block []) =
      some ([], some ⟨.rejectedRange, 0, 0, 0, 0⟩) ∧
    outcome (.driveKw (.known .turnRight) (some ⟨20, 20⟩))
      { block [] with cfg := { exampleConfig with kwRangeMode := .saturate } } =
      some ([.dir .a true, .dir .b false, .duty .a 0, .duty .b 0], some ⟨.ok, 0, 0, 0, 0⟩) := by decide
/-- S7. -/
theorem test_driveVec_stop : outcome (.driveVec (-50) 50) (block []) =
    some ([.dir .a false, .dir .b true, .duty .a 50, .duty .b 50, .duty .a 0, .duty .b 0], some ⟨.ok, 0, 0, 0, 0⟩) := by decide
/-- V-V3, without the events in the middle: 18 events. -/
theorem test_driveVec_independent :
    (outcome (.driveVec 0 0) { block [] with cfg := { exampleConfig with vecBranches := .independent } }).map
      (fun r => (r.1.length, r.1.take 5, r.1.drop 12)) =
    some (18, [.dir .a true, .dir .b true, .duty .a 0, .duty .b 0, .dir .a false],
      [.dir .a true, .dir .b false, .duty .a 0, .duty .b 0, .duty .a 0, .duty .b 0]) := by decide
/-- V-S3: truncation, not floor. -/
theorem test_servoRaw_truncates : ends (.servoRaw 0x10014) (block [91]) =
    some (43, some (.pulse .one 1510), some (.pulse .one 810), some .ok) := by decide
/-- V-S1: both channels, channel 1 first in each frame. -/
theorem test_servoRaw_both : ends (.servoRaw 0x3A0A0) (block [90, 40]) =
    some (65, some (.pulse .one 1500), some (.pulse .two 2200), some .ok) := by decide
/-- V-S13: "3a0a0" with reads 90 and 40. -/
theorem test_servoHex_lowercase : ends (.servoHex [0x33, 0x61, 0x30, 0x61, 0x30]) (block [90, 40]) =
    some (65, some (.pulse .one 1500), some (.pulse .two 800), some .ok) := by decide
/-- V-S12: "A0A0". -/
theorem test_servoHex_no_channel : outcome (.servoHex [0x41, 0x30, 0x41, 0x30]) (block [1]) =
    some ([], some ⟨.ignoredNoChannel, 0x0A0A0, 0, 0xA0, 0xA0⟩) := by decide
/-- V-T1. -/
theorem test_servoStep_down : outcome (.servoStep (.channel .two) false) (block [160]) =
    some ([.read .two 160, .pulse .two 2100, .sleep ⟨2⟩], some ⟨.ok, 0, 0, 0, 0⟩) := by decide
/-- V-T3: below POS_MIN. -/
theorem test_servoStep_clamped : outcome (.servoStep (.channel .one) true) (block [0]) =
    some ([.read .one 0, .pulse .one 800, .sleep ⟨2⟩], some ⟨.ok, 0, 0, 0, 0⟩) := by decide
/-- V-W4. -/
theorem test_servoSweep_one_position :
    outcome (.servoSweep (.channel .one) true) { block [] with cfg := { exampleConfig with posMin := 90, posMax := 90 } } =
    some ([.pulse .one 1500, .sleep ⟨3⟩], some ⟨.ok, 0, 0, 0, 0⟩) := by decide
/-- V-W1 over three positions (R143: POS_MAX first). -/
theorem test_servoSweep_down :
    outcome (.servoSweep (.channel .one) false) { block [] with cfg := { exampleConfig with posMin := 158 } } =
    some ([.pulse .one 2200, .sleep ⟨3⟩, .pulse .one 2190, .sleep ⟨3⟩, .pulse .one 2180, .sleep ⟨3⟩],
      some ⟨.ok, 0, 0, 0, 0⟩) := by decide
/-- V-D14, and R154 for the others. -/
theorem test_reserved : outcome .reserved0 (block []) = some ([], some ⟨.ignoredOpcode, 0, 0, 0, 0⟩) ∧
    outcome .reservedB (block []) = some ([], some ⟨.ignoredOpcode, 0, 0, 0, 0⟩) ∧
    outcome .reservedC (block []) = some ([], some ⟨.ignoredOpcode, 0, 0, 0, 0⟩) ∧
    outcome .reservedD (block []) = some ([], some ⟨.ignoredOpcode, 0, 0, 0, 0⟩) ∧
    outcome .reservedE (block []) = some ([], some ⟨.ignoredOpcode, 0, 0, 0, 0⟩) ∧
    outcome .reservedF (block []) = some ([], some ⟨.ignoredOpcode, 0, 0, 0, 0⟩) := by decide

/-- A block that runs an offered word at its very next step: S6, `DRIVE_VEC 100, 100`, right after reset. -/
theorem test_withFetchWord :
    (match step (State.reset.withFetchWord 64 0x6000000000640064) with
      | .next t => some (t.trace, t.view.dutyA, t.offers)
      | .fault _ => none
      | .refused _ => none) =
    some ([.dir .a true, .dir .b true, .duty .a 100, .duty .b 100, .duty .a 0, .duty .b 0], some 0, []) := by decide

/-! ### Reset -/

/-- A state of the sequencer with the sink stopped after `k` requests of a command, and then `rst` raised for a step. -/
def cutAfter (i : Instr) (k : Nat) (s : State) : Option (List Event × SinkView × Seq × List Response) :=
  match exec i (s.grant (some k)) with
  | .next t =>
    match step (t.driveReset true) with
    | .next u => some (u.trace, u.view, u.seq, u.responses)
    | .fault _ => none
    | .refused _ => none
  | .fault _ => none
  | .refused _ => none

/-- V-R1: cut after frame 5. -/
theorem test_reset_cuts_ramp : (cutAfter (.servoRaw 0x100A0) 13 (block [40])).map
    (fun r => (r.1.length, r.2.1.pulse1, r.2.2)) = some (13, some 1300, .idle, []) := by decide
/-- V-R2: cut between the lines and the duties. -/
theorem test_reset_cuts_drive : cutAfter (.driveVec (-50) 50) 2 (block []) =
    some ([.dir .a false, .dir .b true], ⟨some false, some true, none, none, none, none⟩, .idle, []) := by decide
/-- V-R3: the response is dropped. -/
theorem test_reset_drops_response : cutAfter (.decode 5) 0 (block []) = some ([], .empty, .idle, []) := by decide

/-! ### Witnesses: states and operands that meet each obligation's hypotheses -/

theorem block_ready (as : List Byte) : (block as).Ready := ⟨(by decide : configLegal exampleConfig = true), rfl, rfl, rfl⟩
theorem reset_ready : State.reset.Ready := ⟨by decide, rfl, rfl, rfl⟩

theorem witness_DecodeOfEncodeIsTheCommand :
    (Instr.driveVec (-32768) 32767).wf = true ∧ (Instr.driveKw (.unrecognized 15) (some ⟨0, 255⟩)).wf = true := by decide
theorem witness_FixedFormsOfTheSpecDecode : fixedForms.length = 9 := by decide
theorem witness_AssemblyTextOfTheFixedForms : fixedTexts.length = 9 := by decide
/-- Every clause's operation code. -/
theorem witness_OperationTakesTheListedFields : ∀ k : BitVec 4, (assemble k 0 false false 0 0).extractLsb' 60 4 = k := by decide
/-- The characters beside each range. -/
theorem witness_HexDigitValues : ∀ c ∈ [0x2F, 0x3A, 0x40, 0x47, 0x61, (0xFF : Byte)],
    ¬ (0x30 ≤ c.toNat ∧ c.toNat ≤ 0x39) ∧ ¬ (0x41 ≤ c.toNat ∧ c.toNat ≤ 0x46) := by decide
theorem witness_WordFieldsAreMasksAndShifts : configLegal exampleConfig = true := by decide
theorem hex_rejected_lengths : HexRejected State.reset.cfg [] ∧
    HexRejected State.reset.cfg [0x31, 0x32, 0x33, 0x34, 0x35, 0x36] := by
  unfold HexRejected; decide
theorem hex_accepted_lengths : ¬ HexRejected State.reset.cfg [0x47] ∧
    ¬ HexRejected State.reset.cfg [0x31, 0x32, 0x33, 0x34, 0x35] := by
  unfold HexRejected; decide
theorem witness_ParseHexIsThePositionalSum : (∃ c, HexRejected State.reset.cfg c) ∧
    (∃ c, ¬ HexRejected State.reset.cfg c) ∧ State.reset.cfg.hexMaxLen ≤ 5 :=
  ⟨⟨_, hex_rejected_lengths.1⟩, ⟨_, hex_accepted_lengths.1⟩, by decide⟩
/-- "3FFFF", "1234", and 'G' at the first and the last place of "12". -/
theorem witness_HexFormLaws : 5 ≤ exampleConfig.hexMaxLen ∧ exampleConfig.hexMaxLen ≤ 5 ∧ configLegal exampleConfig = true ∧
    parseHex exampleConfig [0x33, 0x46, 0x46, 0x46, 0x46] = some 0x3FFFF ∧
    parseHex exampleConfig [0x30, 0x31, 0x32, 0x33, 0x34] = parseHex exampleConfig [0x31, 0x32, 0x33, 0x34] ∧
    parseHex exampleConfig [0x31, 0x32] = some 18 ∧ parseHex exampleConfig [0x47, 0x32] = some 2 ∧
    parseHex exampleConfig [0x31, 0x47] = some 16 := by decide

/-- A block with a command on its channel. -/
def offered : State := { block [] with offers := [⟨0x5800000000000000, []⟩] }

theorem witness_StepRunsTheDecodedCommand : configLegal offered.cfg = true ∧ offered.rst = false ∧ offered.seq = .idle ∧
    offered.offers = [⟨0x5800000000000000, []⟩] := by decide
/-- A block with a response on its channel. -/
def answering : State := { block [] with seq := .resp ⟨.ok, 0, 0, 0, 0⟩, sampled := some ⟨0x5800000000000000, []⟩ }

theorem witness_ResponseIsHeldUntilTaken : configLegal (block []).cfg = true ∧ (block []).rst = false ∧
    ((block []).seq = .idle ∧ (block []).offers = []) ∧
    (answering.seq = .resp ⟨.ok, 0, 0, 0, 0⟩ ∧ answering.rspReady = true) ∧
    (answering.driveReady false).rspReady = false := by decide
/-- A block whose sink has stopped before the first of two writes. -/
def stalledBlock (issued : Bool) : State :=
  { block [] with
    sinkGrant := some 0
    seq := .busy (.start ⟨.ok, 0, 0, 0, 0⟩) [.duty .a 0, .duty .b 0] issued
    sampled := some ⟨0x5800000000000000, []⟩ }

theorem witness_OutstandingRequestIsHeld : configLegal (stalledBlock false).cfg = true ∧ (stalledBlock false).rst = false ∧
    (stalledBlock false).seq = .busy (.start ⟨.ok, 0, 0, 0, 0⟩) [.duty .a 0, .duty .b 0] false ∧
    (stalledBlock false).sinkGrant = some 0 := by decide
theorem witness_ResetAbandonsTheCommand : configLegal (stalledBlock false).cfg = true ∧
    (stalledBlock false).outstanding = none ∧ ((stalledBlock false).driveReset true).rst = true := by decide
theorem witness_ResetLeavesTheOutstandingWriteOpen : (stalledBlock true).outstanding = some (.duty .a 0) := by decide
/-- `stop` has two events: cut before the first, between them, and not at all. -/
theorem witness_CutTraceIsTheFirstEvents : (block []).Ready ∧ ∃ t, exec (.driveKw (.known .stop) none) (block []) = .next t ∧
    t.trace.length = 2 ∧ ∀ k ∈ [0, 1, 2, 3],
      ∃ u, exec (.driveKw (.known .stop) none) ((block []).grant (some k)) = .next u ∧ u.trace.length = min k 2 := by
  refine ⟨block_ready [], _, rfl, by decide, ?_⟩
  intro k hk
  simp only [List.mem_cons, List.not_mem_nil, or_false] at hk
  rcases hk with rfl | rfl | rfl | rfl <;> exact ⟨_, rfl, by decide⟩
theorem witness_StoppedCommandResumesToTheSameEnd : (block [40]).Ready ∧
    (∃ t, exec (.servoRaw 0x100A0) (block [40]) = .next t) ∧
    ∃ u, exec (.servoRaw 0x100A0) ((block [40]).grant (some 2)) = .next u :=
  ⟨block_ready [40], ⟨_, rfl⟩, ⟨_, rfl⟩⟩
theorem witness_CommandWaitsWhileNotReady : configLegal answering.cfg = true ∧ answering.cmdReady = false ∧
    ((block []).driveReset true).cmdReady = false := by decide

theorem witness_DecodeAnswersTheWord : State.reset.Ready := reset_ready
theorem witness_ParseHexAnswersTheParsedWord : State.reset.Ready ∧ HexRejected State.reset.cfg [] ∧ ¬ HexRejected State.reset.cfg [0x47] :=
  ⟨reset_ready, hex_rejected_lengths.1, hex_accepted_lengths.1⟩
theorem witness_MotorRawDrivesTheWord : State.reset.Ready := reset_ready
theorem witness_MotorHexDrivesTheParsedWord : State.reset.Ready ∧ HexRejected State.reset.cfg [] ∧ ¬ HexRejected State.reset.cfg [0x47] :=
  ⟨reset_ready, hex_rejected_lengths.1, hex_accepted_lengths.1⟩
theorem witness_MotorWordRoundTrip : State.reset.Ready := reset_ready
theorem witness_KeywordUnrecognizedOrStop : State.reset.Ready := reset_ready
/-- FIX1 is 30: speeds 30 and 255 stay in range, 29 leaves it below; and both range modes. -/
theorem witness_KeywordDrivesItsPrimitive : (block []).Ready ∧
    kwEntry (block []).cfg.kwTable .turnRight = some ⟨.goRight, .fix1, .fix1⟩ ∧
    (DutyRange (adjusted (block []).cfg ⟨.goRight, .fix1, .fix1⟩ (some ⟨30, 255⟩)).1 ∧
      DutyRange (adjusted (block []).cfg ⟨.goRight, .fix1, .fix1⟩ (some ⟨30, 255⟩)).2) ∧
    ¬ (DutyRange (adjusted (block []).cfg ⟨.goRight, .fix1, .fix1⟩ (some ⟨29, 255⟩)).1 ∧
      DutyRange (adjusted (block []).cfg ⟨.goRight, .fix1, .fix1⟩ (some ⟨29, 255⟩)).2) ∧
    (block []).cfg.kwRangeMode = .reject ∧ { (block []).cfg with kwRangeMode := .saturate }.kwRangeMode = .saturate := by
  refine ⟨block_ready [], ?_⟩
  unfold DutyRange; decide
/-- FIX1 is 30 and FIX2 is 50: the least speeds of each clause. -/
theorem witness_DefaultKeywordTable : (block []).Ready ∧ (block []).cfg.kwTable = KwTable.standard ∧
    (block []).cfg.dirLevels = DirLevels.standard ∧ DutyRange (((30 : Byte).toNat : Int) - (block []).cfg.fix1) ∧
    DutyRange (((50 : Byte).toNat : Int) - (block []).cfg.fix2) := by
  refine ⟨block_ready [], ?_⟩
  unfold DutyRange; decide
theorem witness_VectorOutOfRangeIsRejected : (block []).Ready ∧
    ((block []).cfg.speedMax < (256 : Int).natAbs ∨ (block []).cfg.speedMax < (0 : Int).natAbs) ∧
    ((block []).cfg.speedMax < (0 : Int).natAbs ∨ (block []).cfg.speedMax < (-256 : Int).natAbs) :=
  ⟨block_ready [], by decide⟩
theorem independent_ready : ({ block [] with cfg := { exampleConfig with vecBranches := .independent } } : State).Ready :=
  ⟨by decide, rfl, rfl, rfl⟩
theorem witness_VectorDrivesItsCases : (block []).Ready ∧ (255 : Int).natAbs ≤ (block []).cfg.speedMax ∧
    (-255 : Int).natAbs ≤ (block []).cfg.speedMax ∧ (block []).cfg.vecBranches = .chain ∧
    ({ block [] with cfg := { exampleConfig with vecBranches := .independent } } : State).Ready ∧
    ({ block [] with cfg := { exampleConfig with vecBranches := .independent } } : State).cfg.vecBranches = .independent :=
  ⟨block_ready [], by decide, by decide, rfl, independent_ready, rfl⟩
theorem witness_VectorBranchesAgreeOnDuties : (block []).Ready ∧ (0 : Int).natAbs ≤ (block []).cfg.speedMax ∧
    (200 : Int).natAbs ≤ (block []).cfg.speedMax ∧
    (∃ t, exec (.driveVec 0 200) { block [] with cfg := { (block []).cfg with vecBranches := .chain } } = .next t) ∧
    ∃ u, exec (.driveVec 0 200) { block [] with cfg := { (block []).cfg with vecBranches := .independent } } = .next u :=
  ⟨block_ready [], by decide, by decide, ⟨_, rfl⟩, ⟨_, rfl⟩⟩
theorem witness_SlowVectorEndsStopped : (block []).Ready ∧ (100 : Int).natAbs ≤ (block []).cfg.speedMax ∧
    (-100 : Int).natAbs ≤ (block []).cfg.speedMax ∧ (100 : Int).natAbs ≤ (block []).cfg.stopThreshold ∧
    (-100 : Int).natAbs ≤ (block []).cfg.stopThreshold ∧ (block []).cfg.vecBranches = .chain ∧
    ({ block [] with cfg := { exampleConfig with vecBranches := .independent } } : State).Ready :=
  ⟨block_ready [], by decide, by decide, by decide, by decide, rfl, independent_ready⟩
/-- A vector, and `stop`, in two histories. -/
theorem witness_DriveResultForgetsTheHistory : (block []).Ready ∧ (block [7]).Ready ∧ (block [7]).cfg = (block []).cfg ∧
    ∀ i ∈ [Instr.driveVec 0 200, .driveKw (.known .stop) none], isDrive i = true ∧ statusOf (block []).cfg i = .ok ∧
      (∃ t, exec i (block []) = .next t) ∧ ∃ t', exec i (block [7]) = .next t' := by
  refine ⟨block_ready [], block_ready [7], rfl, ?_⟩
  intro i hi
  simp only [List.mem_cons, List.not_mem_nil, or_false] at hi
  rcases hi with rfl | rfl <;> exact ⟨by decide, by decide, ⟨_, rfl⟩, ⟨_, rfl⟩⟩

theorem witness_ServoRawRampsTheActiveChannels : State.reset.Ready := reset_ready
theorem witness_ServoHexRampsTheParsedWord : State.reset.Ready ∧ HexRejected State.reset.cfg [] ∧ ¬ HexRejected State.reset.cfg [0x47] :=
  ⟨reset_ready, hex_rejected_lengths.1, hex_accepted_lengths.1⟩
theorem witness_ServoStepNudgesFromTheReading : State.reset.Ready := reset_ready
theorem witness_ServoSweepWritesEveryPosition : State.reset.Ready := reset_ready
theorem witness_ServoEventCounts : State.reset.Ready ∧
    (∃ t, exec (.servoRaw 0x10000) (block [0]) = .next t) ∧
    ((0x10000 : Operand).getLsbD 16 || (0x10000 : Operand).getLsbD 17) = true ∧
    ∃ t, exec (.servoSweep (.channel .two) false) (block []) = .next t := ⟨reset_ready, ⟨_, rfl⟩, by decide, ⟨_, rfl⟩⟩
theorem witness_FinalFrameStopsShort : configLegal Config.document = true := by decide
/-- A target above and one below the position read, and first and last frames. -/
theorem witness_RampIsMonotone : configLegal exampleConfig = true ∧ 0 < 20 ∧
    ((25 : Byte).toNat : Int) < target exampleConfig 160 ∧ target exampleConfig 5 < ((160 : Byte).toNat : Int) := by decide
theorem witness_PulsesFitThePort : configLegal exampleConfig = true ∧ 20 ≤ exampleConfig.frames ∧
    160 ≤ exampleConfig.posMax := by decide
theorem witness_ClampLaw : configLegal exampleConfig = true ∧ (exampleConfig.posMin : Int) ≤ ((20 : Byte).toNat : Int) ∧
    ((160 : Byte).toNat : Int) ≤ (exampleConfig.posMax : Int) := by decide
/-- Words that differ in bits 18 and 19 only. -/
theorem witness_ControlBits18And19HaveNoEffect : (block [40]).Ready ∧
    (0x100A0 : Operand).extractLsb' 0 18 = (0xD00A0 : Operand).extractLsb' 0 18 ∧
    (∃ t, exec (.motorRaw 0x100A0) (block [40]) = .next t) ∧ (∃ u, exec (.motorRaw 0xD00A0) (block [40]) = .next u) ∧
    (∃ t, exec (.servoRaw 0x100A0) (block [40]) = .next t) ∧ ∃ u, exec (.servoRaw 0xD00A0) (block [40]) = .next u :=
  ⟨block_ready [40], by decide, ⟨_, rfl⟩, ⟨_, rfl⟩, ⟨_, rfl⟩, ⟨_, rfl⟩⟩
theorem witness_ReservedOperationsAreIgnored : State.reset.Ready := reset_ready
theorem witness_ResponseIsTheTablesResponse : configLegal (block []).cfg = true ∧ (block []).cmdReady = true ∧
    (∃ t, exec (.driveVec 0 0) (block []) = .next t) ∧ ∃ t, exec (.driveVec 0 0) ((block []).grant (some 3)) = .next t :=
  ⟨by decide, by decide, ⟨_, rfl⟩, ⟨_, rfl⟩⟩
theorem witness_NotOkIssuesNoEvent : configLegal (block []).cfg = true ∧ (block []).cmdReady = true ∧
    statusOf (block []).cfg (.driveVec 256 0) ≠ .ok ∧ ∃ t, exec (.driveVec 256 0) (block []) = .next t :=
  ⟨by decide, by decide, by decide, ⟨_, rfl⟩⟩
theorem witness_OnlyAnIllegalConfigurationStops : configLegal exampleConfig = true ∧
    configLegal { exampleConfig with wordBits := 19 } = false ∧
    configLegal { exampleConfig with frames := 0 } = false ∧ configLegal { exampleConfig with posMax := 181 } = false := by decide
/-- One command of each clause. -/
theorem witness_CommandFrame : ∀ i ∈ [Instr.decode 0, .motorRaw 0, .driveKw (.known .stop) none, .servoRaw 0x10000, .servoRaw 0x20000,
      .servoHex [0x31, 0x30, 0x30, 0x31, 0x45], .servoHex [0x32, 0x30, 0x30, 0x30, 0x30], .servoStep (.noChannel 0) true,
      .servoSweep (.noChannel 3) false,
      .servoStep (.channel .one) true, .servoStep (.channel .two) true, .servoSweep (.channel .one) true,
      .servoSweep (.channel .two) true], ∃ t, exec i (block [40]) = .next t := by
  intro i hi
  simp only [List.mem_cons, List.not_mem_nil, or_false] at hi
  rcases hi with rfl | rfl | rfl | rfl | rfl | rfl | rfl | rfl | rfl | rfl | rfl | rfl | rfl <;> exact ⟨_, rfl⟩
theorem witness_PowerUpMeetsTheInvariant : configLegal Config.document = true := by decide
/-- A block with a response to be taken meets the invariant and steps. -/
theorem witness_StepKeepsTheInvariant : answering.Inv ∧ ∃ t, step answering = .next t :=
  ⟨⟨by decide, rfl, by decide, rfl, by decide, by decide⟩, ⟨_, rfl⟩⟩
theorem witness_EnvironmentKeepsTheInvariant : answering.Inv := witness_StepKeepsTheInvariant.1
theorem witness_ReachableStatesMeetTheInvariant : Reachable (State.reset.offer ⟨0, []⟩) :=
  .env _ (.offer ⟨0, []⟩) (.powerUp _ (by decide))
theorem witness_StepOnlyAddsToTheRecord : ∃ t, step answering = .next t := ⟨_, rfl⟩
theorem witness_EveryOfferedCommandIsAnsweredInOrder : offered.Ready ∧ offered.rspReady = true ∧ offered.offers.length = 1 :=
  ⟨⟨by decide, rfl, rfl, rfl⟩, by decide, by decide⟩
/-- A request not yet issued and one outstanding; a sink that stops at once, once more in between, and after the end. -/
theorem witness_BusyBlockResumesToTheSameEnd : ∀ b ∈ [false, true], configLegal (stalledBlock b).cfg = true ∧
    (stalledBlock b).rst = false ∧ (stalledBlock b).seq = .busy (.start ⟨.ok, 0, 0, 0, 0⟩) [.duty .a 0, .duty .b 0] b ∧
    (∃ v, step ((stalledBlock b).grant none) = .next v) ∧
    ∀ j ∈ [0, 1, 2], ∃ u, step ((stalledBlock b).grant (some j)) = .next u ∧ u.trace.length = j := by
  intro b hb
  simp only [List.mem_cons, List.not_mem_nil, or_false] at hb
  rcases hb with rfl | rfl <;> refine ⟨by decide, by decide, by decide, ⟨_, rfl⟩, ?_⟩ <;> intro j hj <;>
    simp only [List.mem_cons, List.not_mem_nil, or_false] at hj <;> rcases hj with rfl | rfl | rfl <;>
    exact ⟨_, rfl, by decide⟩

end Sys2Proof.Tests
end

section
/-! SUPPORT. The response and the operations a command is accepted with: the response is the tables' own (R150, R151,
R153), only a command of status OK has operations (R152), and what those operations are. -/

namespace Sys2Proof.Machine

/-! ### The hex form -/

/-- A sequence parses exactly where its length is accepted (R67). -/
theorem parseHex_eq_ite (c : Config) (h : HexSeq) :
    parseHex c h = if hexAccepted c h then some (hexScan h.reverse 0 0) else none := by
  by_cases hrej : h.length = 0 ∨ c.hexMaxLen < h.length
  · have hacc : ¬ (1 ≤ h.length ∧ h.length ≤ c.hexMaxLen) := by omega
    simp only [parseHex, hexAccepted, if_pos hrej, decide_eq_true_eq, if_neg hacc]
  · have hacc : 1 ≤ h.length ∧ h.length ≤ c.hexMaxLen := by omega
    simp only [parseHex, hexAccepted, if_neg hrej, decide_eq_true_eq, if_pos hacc]

/-- The masked word of a parse result keeps the result's low 20 bits (R63, R90). -/
theorem wordOf_parsedOperand {c : Config} (hl : configLegal c = true) (n : Nat) :
    wordOf c (parsedOperand n) = BitVec.ofNat 20 n := by
  apply BitVec.eq_of_toNat_eq
  simp only [wordOf_legal hl, parsedOperand, BitVec.extractLsb'_toNat, BitVec.toNat_ofNat]
  omega

/-! ### The response of a command -/

/-- A response with a status and a word, its fields those of the word, is the tables' response where status and word
are theirs. -/
theorem wordResponse_eq_responseOf {c : Config} {i : Instr} {st : Status} {w : CmdWord} (hs : st = statusOf c i)
    (hw : w = carriedWord c i) : wordResponse st w = responseOf c i := by
  subst hs hw; rfl

theorem plainResponse_eq_wordResponse (st : Status) : plainResponse st = wordResponse st 0 := rfl

/-- The status of a servo word is OK exactly where a channel is active (R122, R153). -/
theorem servoProgram_response (c : Config) (v : Operand) :
    (servoProgram c v).1 = wordResponse (servoWordStatus (wordOf c v)) (wordOf c v) := by
  unfold servoProgram servoWordStatus wordAct1 wordAct2
  split <;> rfl

/-- The response of a hex command, from that of its word. -/
theorem hexProgram_response {c : Config} (hl : configLegal c = true) (h : HexSeq) (st : CmdWord → Status)
    {f : Operand → Response × List Op} (hf : ∀ v, (f v).1 = wordResponse (st (wordOf c v)) (wordOf c v)) :
    (hexProgram c h f).1 =
      wordResponse (if hexAccepted c h then st (hexWord c h) else .ignoredLength) (hexWord c h) := by
  unfold hexProgram hexWord
  cases hacc : hexAccepted c h
  · simp [parseHex_eq_ite, hacc, plainResponse_eq_wordResponse]
  · simp [parseHex_eq_ite, hacc, hf, wordOf_parsedOperand hl]

/-- A direction keyword has no primitive exactly where `reject` meets a speed outside 0 to 255 (R105). -/
theorem keywordPrimitive_eq_none_iff (c : Config) (e : KwEntry) (speeds : Option SpeedPair) :
    keywordPrimitive c e speeds = none ↔
      c.kwRangeMode = .reject ∧
        ¬ (0 ≤ adjustedSpeed c (baseSpeeds c speeds).a e.offA ∧ adjustedSpeed c (baseSpeeds c speeds).a e.offA ≤ 255 ∧
          0 ≤ adjustedSpeed c (baseSpeeds c speeds).b e.offB ∧ adjustedSpeed c (baseSpeeds c speeds).b e.offB ≤ 255) := by
  simp only [keywordPrimitive, speedInRange, Bool.and_eq_true, decide_eq_true_eq, and_assoc]
  split
  · next hin => exact iff_of_false (by simp) fun h => h.2 hin
  · next hout => cases c.kwRangeMode <;> simp [hout, -not_and]

/-- A keyword's plan has the status of R153's checks. -/
theorem keywordPlan_status (c : Config) (k : KwCode) (speeds : Option SpeedPair) :
    (keywordPlan c k speeds).1 = statusOf c (.driveKw k speeds) := by
  cases k with
  | unrecognized code => rfl
  | known kw =>
    cases he : kwEntry c.kwTable kw with
    | none => simp only [keywordPlan, statusOf, he]
    | some e =>
      simp only [keywordPlan, statusOf, he, ← keywordPrimitive_eq_none_iff]
      cases keywordPrimitive c e speeds <;> rfl

/-- A component is in the vector form's domain where its magnitude is at most SPEED_MAX (R61). -/
theorem componentInRange_iff (c : Config) (a : Int) : componentInRange c a = true ↔ a.natAbs ≤ c.speedMax := by
  simp only [componentInRange, decide_eq_true_eq]; omega

/-- Every command is accepted with the response of the tables (R150, R151, R153). -/
theorem program_response {c : Config} (hl : configLegal c = true) (i : Instr) : (program c i).1 = responseOf c i := by
  cases i with
  | decode v => exact wordResponse_eq_responseOf rfl (wordOf_legal hl v)
  | parseHex h =>
    exact (hexProgram_response hl h (fun _ => .ok) fun _ => rfl).trans (wordResponse_eq_responseOf rfl rfl)
  | motorRaw v => exact wordResponse_eq_responseOf rfl (wordOf_legal hl v)
  | motorHex h =>
    exact (hexProgram_response hl h (fun _ => .ok) fun _ => rfl).trans (wordResponse_eq_responseOf rfl rfl)
  | driveKw k speeds => exact wordResponse_eq_responseOf (keywordPlan_status c k speeds) rfl
  | driveVec a b =>
    have hst : (program c (.driveVec a b)).1 = wordResponse (statusOf c (.driveVec a b)) 0 := by
      simp only [program, statusOf, Bool.and_eq_true, componentInRange_iff]
      split <;> rfl
    exact hst.trans (wordResponse_eq_responseOf rfl rfl)
  | servoRaw v =>
    have hw := wordOf_legal hl v
    exact (servoProgram_response c v).trans (wordResponse_eq_responseOf (by rw [hw]; rfl) hw)
  | servoHex h =>
    exact (hexProgram_response hl h servoWordStatus (servoProgram_response c)).trans
      (wordResponse_eq_responseOf rfl rfl)
  | servoStep ch up => cases ch <;> exact wordResponse_eq_responseOf rfl rfl
  | servoSweep ch up => cases ch <;> exact wordResponse_eq_responseOf rfl rfl
  | _ => exact wordResponse_eq_responseOf rfl rfl

theorem responseOf_fieldsAgree (c : Config) (i : Instr) : fieldsAgree (responseOf c i) = true := by
  simp [fieldsAgree, responseOf, wordControl, wordHigh, wordLow]

/-! ### The operations of a command -/

/-- The operations of a servo word: entry reads, and in frames 0 to F a write of each active channel and a delay
(R123, R127). -/
theorem mem_servoOps {c : Config} {w : CmdWord} {op : Op} (h : op ∈ servoOps c w) :
    (∃ s, op = .enter s) ∨
      ∃ i ≤ c.frames, op = .frameSleep i ∨ (op = .ramp .one i ∧ wordAct1 w = true) ∨
        (op = .ramp .two i ∧ wordAct2 w = true) := by
  simp only [servoOps, frameOps, whenSet, List.mem_append, List.mem_flatMap, List.mem_range, List.mem_ite_nil_right,
    List.mem_singleton] at h
  obtain (⟨-, rfl⟩ | ⟨-, rfl⟩) | ⟨i, hi, (⟨ha, rfl⟩ | ⟨ha, rfl⟩) | rfl⟩ := h
  · exact .inl ⟨_, rfl⟩
  · exact .inl ⟨_, rfl⟩
  · exact .inr ⟨i, by omega, .inr (.inl ⟨rfl, ha⟩)⟩
  · exact .inr ⟨i, by omega, .inr (.inr ⟨rfl, ha⟩)⟩
  · exact .inr ⟨i, by omega, .inl rfl⟩

/-- The operations of a sweep write positions between the bounds (R143, R145). -/
theorem mem_sweepOps {c : Config} (hl : configLegal c = true) {s : Servo} {up : Bool} {op : Op}
    (h : op ∈ sweepOps c s up) : ∃ p, c.posMin ≤ p ∧ p ≤ c.posMax ∧ (op = .sweep s p ∨ op = .sweepSleep p) := by
  simp only [configLegal, decide_eq_true_eq] at hl
  obtain ⟨-, -, hb, -⟩ := hl
  simp only [sweepOps, sweepPositions, List.mem_flatMap, List.mem_map, List.mem_range, List.mem_cons,
    List.not_mem_nil, or_false] at h
  obtain ⟨p, ⟨k, hk, rfl⟩, hop⟩ := h
  exact ⟨_, by split <;> omega, by split <;> omega, hop⟩

/-- A primitive drives lines and duties (R94, R96). -/
theorem mem_primitiveOps {c : Config} {p : Primitive} {op : Op} (h : op ∈ primitiveOps c p) :
    (∃ l level, op = .dir l level) ∨ ∃ w v, op = .duty w v := by
  cases p with
  | go p sA sB =>
    simp only [primitiveOps, driveOps, List.mem_cons, List.not_mem_nil, or_false] at h
    obtain rfl | rfl | rfl | rfl := h
    · exact .inl ⟨_, _, rfl⟩
    · exact .inl ⟨_, _, rfl⟩
    · exact .inr ⟨_, _, rfl⟩
    · exact .inr ⟨_, _, rfl⟩
  | stop =>
    simp only [primitiveOps, List.mem_cons, List.not_mem_nil, or_false] at h
    obtain rfl | rfl := h
    · exact .inr ⟨_, _, rfl⟩
    · exact .inr ⟨_, _, rfl⟩

/-- Of a command's response and operations: only status OK has operations (R152), and they are a servo word's, or write
no frame and stay within their bounds. -/
structure SoundProgram (c : Config) (p : Response × List Op) : Prop where
  ok : p.2 ≠ [] → p.1.status = .ok
  ops : (∃ w, p.2 = servoOps c w) ∨ ∀ op ∈ p.2, isRamp op = false ∧ opInRange c op = true

theorem SoundProgram.nil (c : Config) (r : Response) : SoundProgram c (r, []) :=
  ⟨fun h => absurd rfl h, .inr (by simp)⟩

theorem SoundProgram.servo (c : Config) (v : Operand) : SoundProgram c (servoProgram c v) := by
  unfold servoProgram
  split
  · exact ⟨fun _ => rfl, .inl ⟨_, rfl⟩⟩
  · exact .nil c _

/-- Primitives drive lines and duties, which have no frame and no position. -/
theorem SoundProgram.primitives {c : Config} {r : Response} (ps : List Primitive) (hok : ps ≠ [] → r.status = .ok) :
    SoundProgram c (r, ps.flatMap (primitiveOps c)) where
  ok hne := hok (by rintro rfl; exact hne rfl)
  ops := .inr fun op hop => by
    obtain ⟨p, -, hp⟩ := List.mem_flatMap.mp hop
    obtain ⟨l, level, rfl⟩ | ⟨w, v, rfl⟩ := mem_primitiveOps hp <;> exact ⟨rfl, rfl⟩

theorem SoundProgram.motor (c : Config) (v : Operand) : SoundProgram c (motorProgram c v) where
  ok _ := rfl
  ops := .inr (by simp [motorProgram, motorOps, driveOps, isRamp, opInRange])

theorem SoundProgram.hex {c : Config} {f : Operand → Response × List Op} (hf : ∀ v, SoundProgram c (f v)) (h : HexSeq) :
    SoundProgram c (hexProgram c h f) := by
  unfold hexProgram
  cases parseHex c h with
  | none => exact .nil c _
  | some value => exact hf _

theorem SoundProgram.step (c : Config) (s : Servo) (up : Bool) : SoundProgram c (plainResponse .ok, stepOps s up) where
  ok _ := rfl
  ops := .inr (by simp [stepOps, isRamp, opInRange])

theorem SoundProgram.sweep {c : Config} (hl : configLegal c = true) (s : Servo) (up : Bool) :
    SoundProgram c (plainResponse .ok, sweepOps c s up) where
  ok _ := rfl
  ops := .inr fun op hop => by
    obtain ⟨p, hlo, hhi, rfl | rfl⟩ := mem_sweepOps hl hop <;> exact ⟨rfl, decide_eq_true ⟨hlo, hhi⟩⟩

/-- A keyword's plan has primitives under status OK alone (R106). -/
theorem keywordPlan_ok {c : Config} {k : KwCode} {speeds : Option SpeedPair} (h : (keywordPlan c k speeds).2 ≠ []) :
    (keywordPlan c k speeds).1 = .ok := by
  cases k with
  | unrecognized code => exact absurd rfl h
  | known kw =>
    cases he : kwEntry c.kwTable kw with
    | none => simp only [keywordPlan, he]
    | some e =>
      simp only [keywordPlan, he] at h ⊢
      cases hp : keywordPrimitive c e speeds with
      | none => simp [hp] at h
      | some p => rfl

/-- Every command's response and operations are of that kind. -/
theorem program_sound {c : Config} (hl : configLegal c = true) (i : Instr) : SoundProgram c (program c i) := by
  cases i with
  | parseHex h => exact .hex (fun v => .nil c (wordResponse .ok (wordOf c v))) h
  | motorRaw v => exact .motor c v
  | motorHex h => exact .hex (.motor c) h
  | driveKw k speeds => exact .primitives _ keywordPlan_ok
  | driveVec a b =>
    simp only [program]
    split
    · exact .primitives _ fun _ => rfl
    · exact .nil c _
  | servoRaw v => exact .servo c v
  | servoHex h => exact .hex (.servo c) h
  | servoStep ch up =>
    cases ch with
    | noChannel code => exact .nil c _
    | channel s => exact .step c s up
  | servoSweep ch up =>
    cases ch with
    | noChannel code => exact .nil c _
    | channel s => exact .sweep hl s up
  | _ => exact .nil c _

end Sys2Proof.Machine
end

section
/-! SUPPORT. The invariant through one command: what a BUSY block's data satisfies at acceptance, after each operation,
and so wherever performing ends (R22, R23, R26). -/

namespace Sys2Proof.Machine

/-! ### No frame reads a lane before its entry read (R26) -/

/-- A lane once entered is ready for every write of a frame. -/
theorem rampsReady_of_laneReady {c : Config} {t : Transient} {s : Servo} (h : laneReady c t s = true) (todo : List Op) :
    rampsReady c t s todo = true := by
  induction todo with
  | nil => rfl
  | cons op rest ih =>
    cases op with
    | enter s' => simp [rampsReady, ih]
    | ramp s' i => simp [rampsReady, ih, h]
    | _ => exact ih

/-- Operations without a frame's write of the channel read nothing of its lane. -/
theorem rampsReady_of_no_ramp (c : Config) (t : Transient) {s : Servo} {todo : List Op}
    (h : ∀ op ∈ todo, ∀ i, op ≠ .ramp s i) : rampsReady c t s todo = true := by
  induction todo with
  | nil => rfl
  | cons op rest ih =>
    have hrest := ih fun o ho => h o (List.mem_cons_of_mem _ ho)
    cases op with
    | enter s' => simp [rampsReady, hrest]
    | ramp s' i =>
      have hne : s' ≠ s := by rintro rfl; exact h _ List.mem_cons_self i rfl
      simp [rampsReady, hne, hrest]
    | _ => exact hrest

theorem rampsReady_of_not_isRamp (c : Config) (t : Transient) (s : Servo) {todo : List Op}
    (h : ∀ op ∈ todo, isRamp op = false) : rampsReady c t s todo = true :=
  rampsReady_of_no_ramp c t fun op hop i hi => by simpa [hi, isRamp] using h op hop

/-- The lane is all of the transient state, beside the response, that the frames of a channel read. -/
theorem rampsReady_congr {c : Config} {t t' : Transient} {s : Servo} (hr : t'.rsp = t.rsp) (hl : t'.lane s = t.lane s)
    (todo : List Op) : rampsReady c t' s todo = rampsReady c t s todo := by
  have hlane : laneReady c t' s = laneReady c t s := by simp [laneReady, hr, hl]
  induction todo with
  | nil => rfl
  | cons op rest ih =>
    cases op with
    | enter s' => simp [rampsReady, ih]
    | ramp s' i => simp [rampsReady, ih, hlane]
    | _ => exact ih

/-- An entry read makes its own lane ready (R123, R125, R126). -/
theorem laneReady_commit_enter (c : Config) (a : Byte) (t : Transient) (s : Servo) :
    laneReady c ((Op.enter s).commit c a t) s = true := by
  simp [laneReady, Op.commit, laneEntered]

/-- An operation other than the step variant's read leaves the rest as ready as it was. -/
theorem rampsReady_commit {c : Config} {t : Transient} {s : Servo} {op : Op} {rest : List Op} (a : Byte)
    (h : rampsReady c t s (op :: rest) = true) (hop : isSense op = false) :
    rampsReady c (op.commit c a t) s rest = true := by
  cases op with
  | enter s' =>
    by_cases hs : s' = s
    · subst hs
      exact rampsReady_of_laneReady (laneReady_commit_enter c a t s') rest
    · have hlane : ((Op.enter s').commit c a t).lane s = t.lane s := Transient.lane_setLane_ne t _ (Ne.symm hs)
      rw [rampsReady_congr (Op.commit_rsp c a t _) hlane]
      simpa [rampsReady, hs] using h
  | ramp s' i =>
    rw [Op.commit_of_not_reads (op := .ramp s' i) rfl]
    by_cases hs : s' = s
    · exact rampsReady_of_laneReady (by simpa [rampsReady, hs] using h) rest
    · simpa [rampsReady, hs] using h
  | sense s' => simp [isSense] at hop
  | _ => exact h

/-- A servo word enters each channel before the first frame that writes it (R123, R127). -/
theorem rampsReady_servoOps (c : Config) (t : Transient) (w : CmdWord) (s : Servo) :
    rampsReady c t s (servoOps c w) = true := by
  have inactive (hs : ∀ i, Op.ramp s i ∉ servoOps c w) : rampsReady c t s (servoOps c w) = true :=
    rampsReady_of_no_ramp c t fun op hop i hi => hs i (hi ▸ hop)
  cases s with
  | one =>
    cases h1 : wordAct1 w with
    | true => simp [servoOps, whenSet, h1, rampsReady]
    | false => exact inactive fun i hi => by simpa [h1] using mem_servoOps hi
  | two =>
    cases h2 : wordAct2 w with
    | true => cases h1 : wordAct1 w <;> simp [servoOps, whenSet, h1, h2, rampsReady]
    | false => exact inactive fun i hi => by simpa [h2] using mem_servoOps hi

/-! ### A command in flight -/

/-- What `seqInv` asks of a BUSY block, beside that an operation is left. -/
structure Pending (c : Config) (t : Transient) (todo : List Op) : Prop where
  ok : todo ≠ [] → t.rsp.status = .ok
  fields : fieldsAgree t.rsp = true
  range : ∀ op ∈ todo, opInRange c op = true
  apart : (∀ op ∈ todo, isSense op = false) ∨ ∀ op ∈ todo, isRamp op = false
  ramps : ∀ s, rampsReady c t s todo = true

theorem seqInv_busy_iff (c : Config) (t : Transient) (todo : List Op) (issued : Bool) :
    seqInv c (.busy t todo issued) = true ↔ todo ≠ [] ∧ Pending c t todo := by
  simp only [seqInv, Bool.and_eq_true, Bool.or_eq_true, List.all_eq_true, Bool.not_eq_true', List.isEmpty_eq_false_iff,
    beq_iff_eq, ne_eq]
  constructor
  · rintro ⟨⟨⟨⟨⟨⟨hne, hok⟩, hf⟩, hr⟩, ha⟩, h1⟩, h2⟩
    exact ⟨hne, fun _ => hok, hf, hr, ha, fun | .one => h1 | .two => h2⟩
  · rintro ⟨hne, h⟩
    exact ⟨⟨⟨⟨⟨⟨hne, h.ok hne⟩, h.fields⟩, h.range⟩, h.apart⟩, h.ramps .one⟩, h.ramps .two⟩

/-- A servo word's frames go to FRAMES, and it never steps a channel (R127). -/
theorem servoOps_inRange {c : Config} {w : CmdWord} {op : Op} (h : op ∈ servoOps c w) :
    opInRange c op = true ∧ isSense op = false := by
  obtain ⟨s, rfl⟩ | ⟨i, hi, rfl | ⟨rfl, -⟩ | ⟨rfl, -⟩⟩ := mem_servoOps h
  · exact ⟨rfl, rfl⟩
  · exact ⟨decide_eq_true hi, rfl⟩
  · exact ⟨decide_eq_true hi, rfl⟩
  · exact ⟨decide_eq_true hi, rfl⟩

/-- Every command is accepted in that order. -/
theorem program_pending {c : Config} (hl : configLegal c = true) (i : Instr) :
    Pending c (.start (program c i).1) (program c i).2 := by
  have hs := program_sound hl i
  have hf : fieldsAgree (program c i).1 = true := by rw [program_response hl]; exact responseOf_fieldsAgree c i
  obtain ⟨w, hw⟩ | hops := hs.ops
  · exact ⟨hs.ok, hf, fun op hop => (servoOps_inRange (hw ▸ hop)).1, .inl fun op hop => (servoOps_inRange (hw ▸ hop)).2,
      fun s => hw ▸ rampsReady_servoOps c _ w s⟩
  · exact ⟨hs.ok, hf, fun op hop => (hops op hop).2, .inr fun op hop => (hops op hop).1,
      fun s => rampsReady_of_not_isRamp c _ s fun op hop => (hops op hop).1⟩

/-- Completing an operation keeps the rest in order. -/
theorem Pending.commit {c : Config} {t : Transient} {op : Op} {rest : List Op} (a : Byte)
    (h : Pending c t (op :: rest)) : Pending c (op.commit c a t) rest where
  ok _ := by rw [Op.commit_rsp]; exact h.ok (by simp)
  fields := by rw [Op.commit_rsp]; exact h.fields
  range := fun o ho => h.range o (List.mem_cons_of_mem _ ho)
  apart := h.apart.imp (fun hs o ho => hs o (List.mem_cons_of_mem _ ho)) fun hr o ho => hr o (List.mem_cons_of_mem _ ho)
  ramps s := by
    obtain hs | hr := h.apart
    · exact rampsReady_commit a (h.ramps s) (hs op List.mem_cons_self)
    · exact rampsReady_of_not_isRamp c _ s fun o ho => hr o (List.mem_cons_of_mem _ ho)

/-- Wherever performing ends, the phase's data is in order. -/
theorem perform_seqInv {todo : List Op} {t : Transient} {s : State} (h : Pending s.cfg t todo) :
    seqInv s.cfg (s.perform todo t).seq = true := by
  induction todo generalizing t s with
  | nil => exact h.fields
  | cons op rest ih =>
    cases hst : s.stalled with
    | true =>
      rw [State.perform_stalled hst]
      exact (seqInv_busy_iff s.cfg t (op :: rest) false).mpr ⟨by simp, h⟩
    | false =>
      rw [State.perform_cons hst]
      simpa using ih (s := s.completed _) (by simpa using h.commit s.nextAngle)

/-! ### The invariant, move by move -/

theorem State.perform_seq_ne_idle (s : State) (todo : List Op) (t : Transient) : (s.perform todo t).seq ≠ .idle := by
  obtain h | ⟨t', op, rest, h, -⟩ := s.perform_seq todo t <;> simp [h]

/-- A sampled command carried out as far as the sink lets it keeps the invariant. -/
theorem State.Inv.perform {s : State} {t : Transient} {todo : List Op} (hl : configLegal s.cfg = true)
    (hv : s.view = viewOf s.trace) (hr : s.responses.all fieldsAgree = true) (hs : s.sampled.isSome = true)
    (hrst : s.rst = false) (hp : Pending s.cfg t todo) : (s.perform todo t).Inv where
  legal := by simpa using hl
  view := State.perform_view hv todo t
  seq := by simpa using perform_seqInv hp
  responses := by simpa using hr
  sampled := by simpa [hs] using s.perform_seq_ne_idle todo t
  reset h := by simp [hrst] at h

/-- The effect of a reset keeps the invariant, whether or not an outstanding write took effect (R170, R171). -/
theorem State.Inv.clearByReset {s : State} (h : s.Inv) : s.clearByReset.Inv where
  legal := by simpa using h.legal
  view := by
    obtain ⟨ht, hv⟩ | ⟨r, -, -, ht, hv⟩ := s.settleOutstanding_cases
    · simpa [ht, hv] using h.view
    · simp [ht, hv, h.view]
  seq := by simp [seqInv]
  responses := by simpa using h.responses
  sampled := by simp
  reset := by simp

/-- Handing a response over keeps the invariant (R16, R23). -/
theorem State.Inv.answer {s : State} {r : Response} (h : s.Inv) (hq : s.seq = .resp r) : (s.answer r).Inv where
  legal := h.legal
  view := h.view
  seq := rfl
  responses := by
    have hf : fieldsAgree r = true := by simpa [hq, seqInv] using h.seq
    simpa [hf] using h.responses
  sampled := rfl
  reset _ := rfl

/-- Issuing the next request and holding it keeps the invariant (R18). -/
theorem State.Inv.issue {s : State} {t : Transient} {todo : List Op} {issued : Bool} (h : s.Inv)
    (hq : s.seq = .busy t todo issued) : (s.setSeq (.busy t todo true)).Inv where
  legal := h.legal
  view := h.view
  seq := by
    have hs := h.seq
    rw [hq, seqInv_busy_iff] at hs
    exact (seqInv_busy_iff s.cfg t todo true).mpr hs
  responses := h.responses
  sampled := h.sampled.trans (by rw [hq]; rfl)
  reset hr := by simpa [hq] using h.reset hr

end Sys2Proof.Machine
end

section
/-! PROOF. The statements about the state (spec/10_state.md): the invariant, the record, and the shape of a step. -/

namespace Sys2Proof.Machine

/-! ### A command at a ready block -/

/-- A block with `cmd_ready = 1` carries a command out as far as its sink lets it. -/
theorem exec_of_cmdReady {s : State} (hl : configLegal s.cfg = true) (hr : s.cmdReady = true) (i : Instr) :
    exec i s = .next (s.perform (program s.cfg i).2 (.start (program s.cfg i).1)) := by
  rw [exec_eq_accept, State.accept_ready hl hr]

/-- The state in which the block has taken the offer `c` and carried it out as far as its sink lets it. -/
def State.accepted (s : State) (c : Command) (rest : List Command) : State :=
  (s.sample c rest).perform (program s.cfg c.instr).2 (.start (program s.cfg c.instr).1)

theorem exec_sample {s : State} (hl : configLegal s.cfg = true) (hr : s.rst = false) (hq : s.seq = .idle) (c : Command)
    (rest : List Command) : exec c.instr (s.sample c rest) = .next (s.accepted c rest) :=
  exec_of_cmdReady (s := s.sample c rest) hl ((s.sample c rest).cmdReady_iff.mpr ⟨hq, hr⟩) c.instr

theorem eq_accepted_of_exec_sample {s t : State} {c : Command} {rest : List Command} (hl : configLegal s.cfg = true)
    (hr : s.rst = false) (hq : s.seq = .idle) (h : exec c.instr (s.sample c rest) = .next t) : t = s.accepted c rest :=
  Host.Outcome.next.inj (h.symm.trans (exec_sample hl hr hq c rest))

@[simp] theorem State.accepted_cfg (s : State) (c : Command) (rest : List Command) : (s.accepted c rest).cfg = s.cfg := by
  simp [State.accepted]
@[simp] theorem State.accepted_rst (s : State) (c : Command) (rest : List Command) : (s.accepted c rest).rst = s.rst := by
  simp [State.accepted]
@[simp] theorem State.accepted_rspReady (s : State) (c : Command) (rest : List Command) :
    (s.accepted c rest).rspReady = s.rspReady := by
  simp [State.accepted]
@[simp] theorem State.accepted_offers (s : State) (c : Command) (rest : List Command) :
    (s.accepted c rest).offers = rest := by
  simp [State.accepted]
@[simp] theorem State.accepted_responses (s : State) (c : Command) (rest : List Command) :
    (s.accepted c rest).responses = s.responses := by
  simp [State.accepted]

theorem State.accepted_trace (s : State) (c : Command) (rest : List Command) :
    ∃ es, (s.accepted c rest).trace = s.trace ++ es :=
  State.perform_trace (s.sample c rest) _ _

/-- A sink that completes every request brings the command to the tables' response. -/
theorem State.Ready.accepted_seq {s : State} (h : s.Ready) (c : Command) (rest : List Command) :
    (s.accepted c rest).seq = .resp (responseOf s.cfg c.instr) := by
  rw [← program_response h.legal]
  exact State.perform_seq_none (s := s.sample c rest) h.sink _ _

/-! ### The invariant -/

/-- Accepting the command on the channel keeps the invariant. -/
theorem State.Inv.accept {s : State} (h : s.Inv) (hr : s.rst = false) (c : Command) (rest : List Command) :
    (s.accepted c rest).Inv :=
  .perform h.legal h.view h.responses rfl hr (program_pending h.legal c.instr)

/-- A command in flight that goes on keeps the invariant. -/
theorem State.Inv.goOn {s : State} {t : Transient} {todo : List Op} {issued : Bool} (h : s.Inv) (hr : s.rst = false)
    (hq : s.seq = .busy t todo issued) : (s.goOn t todo).Inv := by
  obtain ⟨-, -, hgo⟩ | hgo := s.goOn_cases t todo
  · exact hgo ▸ h.issue hq
  · have hseq := h.seq
    rw [hq, seqInv_busy_iff] at hseq
    have hs : s.sampled.isSome = true := by rw [h.sampled, hq]; rfl
    exact hgo ▸ .perform h.legal h.view h.responses hs hr hseq.2

/-- Settles O52: each of the moves a step can be keeps the invariant. -/
theorem stepKeepsTheInvariant : Obligations.StepKeepsTheInvariant := by
  intro s t h hstep
  obtain ⟨hl, ⟨-, rfl⟩ | ⟨hr, hmove⟩⟩ := step_cases hstep
  · exact h.clearByReset
  obtain ⟨-, -, rfl⟩ | ⟨c, rest, hq, -, hexec⟩ | ⟨tr, todo, issued, hq, rfl⟩ | ⟨r, hq, -, rfl⟩ | ⟨-, -, -, rfl⟩ := hmove
  · exact h
  · exact eq_accepted_of_exec_sample hl hr hq hexec ▸ h.accept hr c rest
  · exact h.goOn hr hq
  · exact h.answer hq
  · exact h

/-- Settles O53: raising `rst` has the effect of a reset, and every other move changes inputs the invariant does not
speak of. -/
theorem environmentKeepsTheInvariant : Obligations.EnvironmentKeepsTheInvariant := by
  intro s m h
  cases m with
  | reset level =>
    cases level with
    | true =>
      obtain ⟨legal, view, seq, responses, sampled, -⟩ := h.clearByReset
      exact ⟨legal, view, seq, responses, sampled, fun _ => s.clearByReset_seq⟩
    | false => exact ⟨h.legal, h.view, h.seq, h.responses, h.sampled, fun hr => absurd hr Bool.false_ne_true⟩
  | _ => exact ⟨h.legal, h.view, h.seq, h.responses, h.sampled, h.reset⟩

/-! ### The record -/

/-- Settles O55: performing adds events, a reset at most the outstanding write, and only the response channel's handshake
adds a response. -/
theorem stepOnlyAddsToTheRecord : Obligations.StepOnlyAddsToTheRecord := by
  intro s t hstep
  have unchanged : ∃ es, s.trace = s.trace ++ es := ⟨[], by simp⟩
  obtain ⟨hl, ⟨-, rfl⟩ | ⟨hr, hmove⟩⟩ := step_cases hstep
  · refine ⟨s.clearByReset_cfg, ?_, .inl s.clearByReset_responses⟩
    obtain ⟨ht, -⟩ | ⟨r, -, -, ht, -⟩ := s.settleOutstanding_cases
    · exact ⟨[], by simp [ht]⟩
    · exact ⟨[r.event 0], by simp [ht]⟩
  obtain ⟨-, -, rfl⟩ | ⟨c, rest, hq, -, hexec⟩ | ⟨tr, todo, issued, hq, rfl⟩ | ⟨r, hq, -, rfl⟩ | ⟨-, -, -, rfl⟩ := hmove
  · exact ⟨rfl, unchanged, .inl rfl⟩
  · rw [eq_accepted_of_exec_sample hl hr hq hexec]
    exact ⟨s.accepted_cfg c rest, s.accepted_trace c rest, .inl (s.accepted_responses c rest)⟩
  · obtain ⟨-, -, hgo⟩ | hgo := s.goOn_cases tr todo <;> rw [hgo]
    · exact ⟨rfl, unchanged, .inl rfl⟩
    · exact ⟨s.perform_cfg todo tr, s.perform_trace todo tr, .inl (s.perform_responses todo tr)⟩
  · exact ⟨rfl, unchanged, .inr ⟨r, hq, rfl⟩⟩
  · exact ⟨rfl, unchanged, .inl rfl⟩

/-! ### The step, phase by phase -/

theorem step_idle_waits {s : State} (hl : configLegal s.cfg = true) (hr : s.rst = false) (hq : s.seq = .idle)
    (ho : s.offers = []) : step s = .next s := by
  simp [step, hl, hr, hq, ho]

theorem step_accepts {s : State} (hl : configLegal s.cfg = true) (hr : s.rst = false) (hq : s.seq = .idle) {c : Command}
    {rest : List Command} (ho : s.offers = c :: rest) : step s = exec c.instr (s.sample c rest) := by
  simp [step, hl, hr, hq, ho]

theorem step_busy {s : State} (hl : configLegal s.cfg = true) (hr : s.rst = false) {t : Transient} {todo : List Op}
    {issued : Bool} (hq : s.seq = .busy t todo issued) : step s = .next (s.goOn t todo) := by
  simp [step, hl, hr, hq]

theorem step_holds {s : State} (hl : configLegal s.cfg = true) (hr : s.rst = false) {r : Response}
    (hq : s.seq = .resp r) (hy : s.rspReady = false) : step s = .next s := by
  simp [step, hl, hr, hq, hy]

theorem step_answers {s : State} (hl : configLegal s.cfg = true) (hr : s.rst = false) {r : Response}
    (hq : s.seq = .resp r) (hy : s.rspReady = true) : step s = .next (s.answer r) := by
  simp [step, hl, hr, hq, hy]

/-- Settles O13: the step takes and samples the offer. -/
theorem stepRunsTheDecodedCommand : Obligations.StepRunsTheDecodedCommand :=
  fun _ _ _ hl hr hq ho => step_accepts hl hr hq ho

/-- Settles O14, a clause for each phase without a command in flight. -/
theorem responseIsHeldUntilTaken : Obligations.ResponseIsHeldUntilTaken :=
  fun _ hl hr =>
    ⟨fun hq ho => step_idle_waits hl hr hq ho, fun _ hq hy => step_holds hl hr hq hy, fun _ hq hy => step_answers hl hr hq hy⟩

theorem State.goOn_stalled {s : State} (h : s.stalled = true) (t : Transient) (op : Op) (rest : List Op) :
    s.goOn t (op :: rest) = s.setSeq (.busy t (op :: rest) true) := by
  simp [State.goOn, h]

/-- Settles O15: a stopped sink leaves the next request outstanding. -/
theorem outstandingRequestIsHeld : Obligations.OutstandingRequestIsHeld := by
  intro s t op rest issued hl hr hq hg
  have hstalled : s.stalled = true := by simp [State.stalled, hg]
  refine ⟨?_, by simp [State.snkRequest, hr]⟩
  rw [step_busy hl hr hq, State.goOn_stalled hstalled]
  rfl

/-- Settles O20: every meaning is an acceptance, and an acceptance waits for `cmd_ready`. -/
theorem commandWaitsWhileNotReady : Obligations.CommandWaitsWhileNotReady := by
  intro i s hl hr
  rw [exec_eq_accept, State.accept_waits hl hr]

/-- Settles O50: the state at reset is closed, but for parameters that legality does not speak of. -/
theorem resetLeaves : Obligations.ResetLeaves := by
  have hl : configLegal State.reset.cfg = true := by decide
  exact ⟨rfl, rfl, rfl, rfl, rfl, rfl, rfl, hl, rfl, rfl, rfl, rfl, rfl, rfl, rfl, rfl, rfl, rfl⟩

/-- Going on depends on the command in flight, not on whether its request was outstanding (R18). -/
@[simp] theorem State.goOn_setSeq (s : State) (q : Seq) (t : Transient) (todo : List Op) :
    (s.setSeq q).goOn t todo = s.goOn t todo := by
  simp only [State.goOn, State.perform_setSeq]
  rfl

/-! ### A sink that stops and goes on -/

@[simp] theorem State.nextAngle_grant (s : State) (g : Option Nat) : (s.grant g).nextAngle = s.nextAngle := rfl

theorem State.takeAngle_grant (s : State) (g : Option Nat) : (s.grant g).takeAngle = s.takeAngle.grant g := by
  unfold State.takeAngle
  cases h : s.angles <;> simp [State.grant, h]

/-- What a completion does beside using up the grant does not depend on the grant. -/
theorem State.completed_grant (s : State) (g : Option Nat) (e : Event) :
    (s.grant g).completed e = (s.completed e).grant (g.map (· - 1)) := by
  unfold State.completed
  split
  · rw [State.takeAngle_grant]; rfl
  · rfl

/-- Performing under any grant comes as far as performing without a stop, or stops BUSY at a rest whose performing
without a stop ends there. -/
theorem State.perform_resumes (todo : List Op) (t : Transient) (s : State) (g : Option Nat) :
    ((s.grant g).perform todo t).grant none = (s.grant none).perform todo t ∨
      ∃ t' rest, ((s.grant g).perform todo t).seq = .busy t' rest false ∧
        (((s.grant g).perform todo t).grant none).perform rest t' = (s.grant none).perform todo t := by
  induction todo generalizing t s g with
  | nil => exact .inl rfl
  | cons op rest ih =>
    cases hst : (s.grant g).stalled with
    | true =>
      rw [State.perform_stalled hst]
      exact .inr ⟨t, op :: rest, rfl, State.perform_setSeq (s.grant none) _ _ _⟩
    | false =>
      rw [State.perform_cons hst, State.perform_cons (s := s.grant none) rfl, State.completed_grant, State.completed_grant]
      exact ih _ _ _

/-- A block BUSY at operations goes on to where performing them ends, once its sink completes every request again. -/
theorem step_resumes {s : State} {t : Transient} {todo : List Op} {issued : Bool} (hl : configLegal s.cfg = true)
    (hr : s.rst = false) (hq : s.seq = .busy t todo issued) :
    step (s.grant none) = .next ((s.grant none).perform todo t) := by
  rw [step_busy (s := s.grant none) hl hr hq]
  rfl

/-- Performing that a stop has cut and a step resumed ends where it would without the stop. -/
theorem perform_then_step_resumes {s : State} (hl : configLegal s.cfg = true) (hr : s.rst = false) (g : Option Nat)
    (todo : List Op) (t : Transient) :
    ((s.grant g).perform todo t).grant none = (s.grant none).perform todo t ∨
      step (((s.grant g).perform todo t).grant none) = .next ((s.grant none).perform todo t) := by
  obtain h | ⟨t', rest, hq, h⟩ := State.perform_resumes todo t s g
  · exact .inl h
  · exact .inr (by rw [step_resumes (by simpa using hl) (by simpa using hr) hq, h])

theorem State.grant_of_none {s : State} (h : s.sinkGrant = none) : s.grant none = s := by
  cases s; simp_all [State.grant]

/-- Settles O19: the command is performed under the grant, and the step resumes what is left of it. -/
theorem stoppedCommandResumesToTheSameEnd : Obligations.StoppedCommandResumesToTheSameEnd := by
  intro i s t u k h ht hu
  have hready : s.cmdReady = true := s.cmdReady_iff.mpr ⟨h.idle, h.rst⟩
  rw [exec_of_cmdReady h.legal hready] at ht
  rw [exec_of_cmdReady (s := s.grant (some k)) h.legal hready] at hu
  obtain rfl := Host.Outcome.next.inj ht
  obtain rfl := Host.Outcome.next.inj hu
  have hres := perform_then_step_resumes h.legal h.rst (some k) (program s.cfg i).2 (.start (program s.cfg i).1)
  rwa [State.grant_of_none h.sink] at hres

/-- Settles O57: a BUSY block either issues its request and holds it, or is performed under the grant; and `goOn` does
not look at the issued flag. -/
theorem busyBlockResumesToTheSameEnd : Obligations.BusyBlockResumesToTheSameEnd := by
  intro s t todo issued hl hr hq
  constructor
  · intro j u v hv hu
    rw [step_resumes hl hr hq] at hv
    rw [step_busy (s := s.grant (some j)) hl hr hq] at hu
    obtain rfl := Host.Outcome.next.inj hv
    obtain rfl := Host.Outcome.next.inj hu
    obtain ⟨-, -, hgo⟩ | hgo := (s.grant (some j)).goOn_cases t todo <;> rw [hgo]
    · right
      rw [step_resumes (s := (s.grant (some j)).setSeq (.busy t todo true)) hl hr rfl]
      exact congrArg _ (State.perform_setSeq (s.grant none) _ _ _)
    · exact perform_then_step_resumes hl hr (some j) todo t
  · intro issued'
    have hflag := step_busy (s := s.setSeq (.busy t todo issued')) hl hr rfl
    rw [step_busy hl hr hq, ← s.goOn_setSeq (.busy t todo issued')]
    exact hflag

/-! ### A host that takes responses and a sink that completes requests -/

/-- A ready block answers the offer at the head of the channel in two steps, and is ready for the next one. -/
theorem State.Ready.answers_offer {s : State} (h : s.Ready) (hy : s.rspReady = true) {c : Command} {rest : List Command}
    (ho : s.offers = c :: rest) :
    ∃ m u, step s = .next m ∧ step m = .next u ∧ u.Ready ∧ u.rspReady = true ∧ u.cfg = s.cfg ∧ u.offers = rest ∧
      u.responses = s.responses ++ [responseOf s.cfg c.instr] := by
  have haccept : step s = .next (s.accepted c rest) := by
    rw [step_accepts h.legal h.rst h.idle ho, exec_sample h.legal h.rst h.idle]
  have hlegal : configLegal (s.accepted c rest).cfg = true := by simpa using h.legal
  have hrst : (s.accepted c rest).rst = false := by simpa using h.rst
  have hsink : (s.accepted c rest).sinkGrant = none := State.perform_sinkGrant (s := s.sample c rest) h.sink _ _
  refine ⟨s.accepted c rest, (s.accepted c rest).answer (responseOf s.cfg c.instr), haccept,
    step_answers hlegal hrst (h.accepted_seq c rest) (by simpa using hy), ⟨hlegal, rfl, hrst, hsink⟩, ?_⟩
  simp [hy]

/-- Settles O56, by induction on the offers: two steps answer the first and leave a ready block with the others. -/
theorem everyOfferedCommandIsAnsweredInOrder : Obligations.EveryOfferedCommandIsAnsweredInOrder := by
  intro s h hy
  induction hoffers : s.offers generalizing s with
  | nil => exact ⟨s, rfl, by simp [State.ended, hoffers, h.idle], by simp⟩
  | cons c rest ih =>
    obtain ⟨m, u, hm, hu, hready, hyu, hcfg, ho, hresp⟩ := h.answers_offer hy hoffers
    obtain ⟨t, hrun, hend, hresponses⟩ := ih u hready hyu ho
    refine ⟨t, ?_, hend, by simp [hresponses, hresp, hcfg, Command.instr]⟩
    calc core.run (2 * (c :: rest).length) s
        = core.run (2 * rest.length + 1) m := run_next hm
      _ = core.run (2 * rest.length) u := run_next hu
      _ = .next t := hrun

end Sys2Proof.Machine
end

section
/-! PROOF. The statement about the trace of sink events (spec/20_memory.md, section 3): a stopped sink cuts it. -/

namespace Sys2Proof.Machine

/-- The trace `u` beside the whole trace `t` of one command begun at `s`, where the sink stops after `k` requests: `u`
has the first `k` of `t`'s events, and is BUSY with operations left where it lacks some, in `t`'s phase where it has all. -/
def CutAfter (k : Nat) (s t u : State) : Prop :=
  ∃ es, t.trace = s.trace ++ es ∧ u.trace = s.trace ++ es.take k ∧
    (es.length ≤ k → u.seq = t.seq) ∧
    (k < es.length → ∃ tr op rest, u.seq = .busy tr (op :: rest) false)

/-- A grant of `k` requests cuts performing after `k` events: each operation completed is one event and uses up one. -/
theorem State.perform_cutAfter (todo : List Op) (t : Transient) (s : State) (k : Nat) :
    CutAfter k s ((s.grant none).perform todo t) ((s.grant (some k)).perform todo t) := by
  induction todo generalizing t s k with
  | nil => exact ⟨[], by simp, by simp, fun _ => rfl, by simp⟩
  | cons op rest ih =>
    rw [State.perform_cons (s := s.grant none) rfl, State.completed_grant]
    cases k with
    | zero =>
      rw [State.perform_stalled (s := s.grant (some 0)) rfl]
      obtain ⟨es, hes⟩ := State.perform_trace ((s.completed ((op.request s.cfg t).event s.nextAngle)).grant none) rest
        (op.commit s.cfg s.nextAngle t)
      exact ⟨(op.request s.cfg t).event s.nextAngle :: es, by simpa using hes, by simp, by simp,
        fun _ => ⟨t, op, rest, rfl⟩⟩
    | succ k =>
      rw [State.perform_cons (s := s.grant (some (k + 1))) rfl, State.completed_grant]
      obtain ⟨es, ht, hu, hsame, hbusy⟩ := ih (op.commit s.cfg s.nextAngle t)
        (s.completed ((op.request s.cfg t).event s.nextAngle)) k
      exact ⟨(op.request s.cfg t).event s.nextAngle :: es, by simpa using ht, by simpa using hu, by simpa using hsame,
        by simpa using hbusy⟩

/-- Settles O18: both runs perform the command's operations, the one with no limit and the other under the grant. -/
theorem cutTraceIsTheFirstEvents : Obligations.CutTraceIsTheFirstEvents := by
  intro i s t u k h ht hu
  have hready : s.cmdReady = true := s.cmdReady_iff.mpr ⟨h.idle, h.rst⟩
  rw [exec_ready h] at ht
  rw [exec_of_cmdReady (s := s.grant (some k)) h.legal hready] at hu
  obtain rfl := Host.Outcome.next.inj ht
  obtain rfl := Host.Outcome.next.inj hu
  have hcut := State.perform_cutAfter (program s.cfg i).2 (.start (program s.cfg i).1) s k
  rwa [State.grant_of_none h.sink] at hcut

end Sys2Proof.Machine
end

section
/-! SUPPORT. Fields, words and their hex form (spec/30_encoding.md R54, R63, R66, R69): the bits of an operand, the value and
the fields of an encoded word, the bits of a masked word, and the positional sum of a sequence character by character. -/

namespace Sys2Proof

/-- A field of the operand is the same bits of the descriptor (R54). -/
theorem Descriptor.operand_extractLsb' (d : Descriptor) {start len : Nat} (h : start + len ≤ 32) :
    d.operand.extractLsb' start len = d.extractLsb' start len := by
  apply BitVec.eq_of_getLsbD_eq
  intro i hi
  simp [Descriptor.operand, hi, show start + i < 32 by omega]

end Sys2Proof

namespace Sys2Proof.Machine

open Sys2Proof.Claims

/-! ### Encoded words -/

/-- Bits appended below another vector are the low term of a positional sum (R66, R73). -/
theorem toNat_append_eq_add {m n : Nat} (x : BitVec m) (y : BitVec n) : (x ++ y).toNat = x.toNat * 2 ^ n + y.toNat := by
  rw [BitVec.toNat_append, ← Nat.shiftLeft_add_eq_or_of_lt y.isLt, Nat.shiftLeft_eq]

theorem encodeMotor_toNat (x y : Bool) (p q : Byte) :
    (encodeMotor x y p q).toNat = x.toNat * 2 ^ 17 + y.toNat * 2 ^ 16 + q.toNat * 2 ^ 8 + p.toNat := by
  change @BitVec.toNat (2 + 1 + 1 + 8 + 8) (0#2 ++ BitVec.ofBool x ++ BitVec.ofBool y ++ q ++ p) = _
  simp only [toNat_append_eq_add, BitVec.toNat_ofBool, BitVec.toNat_ofNat]
  omega

@[simp] theorem wordLineA_encodeMotor (x y : Bool) (p q : Byte) : wordLineA (encodeMotor x y p q) = x :=
  getLsbD_encodeMotor x y p q 17

@[simp] theorem wordLineB_encodeMotor (x y : Bool) (p q : Byte) : wordLineB (encodeMotor x y p q) = y :=
  getLsbD_encodeMotor x y p q 16

@[simp] theorem wordLow_encodeMotor (x y : Bool) (p q : Byte) : wordLow (encodeMotor x y p q) = p := by
  apply BitVec.eq_of_getLsbD_eq
  intro i hi
  simp [wordLow, getLsbD_encodeMotor, hi]

@[simp] theorem wordHigh_encodeMotor (x y : Bool) (p q : Byte) : wordHigh (encodeMotor x y p q) = q := by
  apply BitVec.eq_of_getLsbD_eq
  intro i hi
  simp [wordHigh, getLsbD_encodeMotor, hi, show 8 + i < 16 by omega]

@[simp] theorem wordControl_encodeMotor (x y : Bool) (p q : Byte) :
    wordControl (encodeMotor x y p q) = BitVec.ofNat 4 (2 * x.toNat + y.toNat) := by
  apply BitVec.eq_of_toNat_eq
  have hp := p.isLt
  have hq := q.isLt
  simp only [wordControl, BitVec.extractLsb'_toNat, encodeMotor_toNat, BitVec.toNat_ofNat, Nat.shiftRight_eq_div_pow]
  omega

/-! ### Masked words -/

/-- The operand a host makes of a word masks back to the word (R63). -/
theorem wordOf_operand {c : Config} (hl : configLegal c = true) (w : CmdWord) : wordOf c w.operand = w := by
  rw [wordOf_legal hl]
  apply BitVec.eq_of_toNat_eq
  have hw := w.isLt
  simp only [CmdWord.operand, BitVec.extractLsb'_toNat, BitVec.toNat_setWidth, Nat.shiftRight_zero]
  omega

/-- All that a raw word command acts on lies in bits 17:0 of its operand (R64, R65). -/
theorem wordFields_eq_of_low18 {c : Config} (hl : configLegal c = true) {v w : Operand}
    (h : v.extractLsb' 0 18 = w.extractLsb' 0 18) :
    (wordOf c v).getLsbD 17 = (wordOf c w).getLsbD 17 ∧ (wordOf c v).getLsbD 16 = (wordOf c w).getLsbD 16 ∧
      wordLow (wordOf c v) = wordLow (wordOf c w) ∧ wordHigh (wordOf c v) = wordHigh (wordOf c w) := by
  have hbit (i : Nat) (hi : i < 18) : (wordOf c v).getLsbD i = (wordOf c w).getLsbD i := by
    have hi20 : i < 20 := by omega
    have hlow := congrArg (fun x : BitVec 18 => x.getLsbD i) h
    simpa [wordOf_legal hl, hi, hi20] using hlow
  refine ⟨hbit 17 (by decide), hbit 16 (by decide), ?_, ?_⟩
  · apply BitVec.eq_of_getLsbD_eq
    intro i hi
    simpa [wordLow, hi] using hbit i (by omega)
  · apply BitVec.eq_of_getLsbD_eq
    intro i hi
    simpa [wordHigh, hi] using hbit (8 + i) (by omega)

/-! ### The positional sum -/

theorem hexDigit_le (x : Byte) : hexDigit x ≤ 15 := by
  unfold hexDigit
  split
  · omega
  · split <;> omega

/-- A character in front of a sequence has the place above all of it (R69). -/
theorem hexSum_cons (x : Byte) (c : HexSeq) : hexSum (x :: c) = hexSum c + hexDigit x * 16 ^ c.length := by
  unfold hexSum
  rw [List.length_cons, Finset.sum_range_succ]
  congr 1
  · refine Finset.sum_congr rfl fun k hk => ?_
    have hlt : k < c.length := Finset.mem_range.mp hk
    have hpos : c.length + 1 - 1 - k = c.length - 1 - k + 1 := by omega
    rw [hpos, List.getD_cons_succ]
  · simp

theorem hexSum_lt (c : HexSeq) : hexSum c < 16 ^ c.length := by
  induction c with
  | nil => simp [hexSum]
  | cons x c ih =>
    have hx := Nat.mul_le_mul_right (16 ^ c.length) (hexDigit_le x)
    rw [hexSum_cons, List.length_cons, Nat.pow_succ]
    omega

/-- The character the scan comes to last has the place of its position (R82). -/
theorem hexScan_append_singleton (cs : List Byte) (x : Byte) (k v : Nat) :
    hexScan (cs ++ [x]) k v = hexScan cs k v + hexDigit x * 16 ^ (k + cs.length) := by
  induction cs generalizing k v with
  | nil => rfl
  | cons y cs ih =>
    have hplace : k + 1 + cs.length = k + (y :: cs).length := by rw [List.length_cons]; omega
    rw [← hplace]
    exact ih (k + 1) (v + hexDigit y * 16 ^ k)

/-- The scan of R82 computes the sum of R69. -/
theorem hexScan_reverse (c : HexSeq) : hexScan c.reverse 0 0 = hexSum c := by
  induction c with
  | nil => rfl
  | cons x c ih => rw [List.reverse_cons, hexScan_append_singleton, ih, hexSum_cons, List.length_reverse, Nat.zero_add]

end Sys2Proof.Machine
end

section
/-! SUPPORT. Commands at a ready block: those that read nothing have the events of their operations, and of a response no
operation looks at more than the targets. -/

namespace Sys2Proof.Machine

open Sys2Proof.Claims

/-! ### Commands that read nothing -/

/-- A ready block carries out operations that read nothing with the events that are their own. -/
theorem State.Ready.exec_reads_nothing {s : State} (h : s.Ready) {i : Instr}
    (hreads : ∀ op ∈ (program s.cfg i).2, op.reads = false) :
    exec i s = .next (s.finish (program s.cfg i).1
      ((program s.cfg i).2.map fun op => (op.request s.cfg (.start (program s.cfg i).1)).event 0)) := by
  rw [exec_ready h, State.perform_reads_nothing h.sink _ _ hreads]
  rfl

theorem driveOps_reads {lA lB : Bool} {sA sB : Byte} {op : Op} (h : op ∈ driveOps lA lB sA sB) : op.reads = false := by
  simp only [driveOps, List.mem_cons, List.not_mem_nil, or_false] at h
  obtain rfl | rfl | rfl | rfl := h <;> rfl

theorem flatMap_primitiveOps_reads {c : Config} {ps : List Primitive} {op : Op} (h : op ∈ ps.flatMap (primitiveOps c)) :
    op.reads = false := by
  obtain ⟨p, -, hp⟩ := List.mem_flatMap.mp h
  obtain ⟨l, level, rfl⟩ | ⟨w, v, rfl⟩ := mem_primitiveOps hp <;> rfl

/-- MOTOR_RAW at a ready block drives the lines and duties of the masked word (R97, R99). -/
theorem State.Ready.exec_motorRaw {s : State} (h : s.Ready) (v : Operand) :
    exec (.motorRaw v) s = .next (s.finish (wordResponse .ok (wordOf s.cfg v))
      (driveEvents (wordLineA (wordOf s.cfg v)) (wordLineB (wordOf s.cfg v)) (wordLow (wordOf s.cfg v))
        (wordHigh (wordOf s.cfg v)))) :=
  h.exec_reads_nothing fun _ => driveOps_reads

/-- A servo word has operations exactly where a channel is active (R122, R128). -/
theorem servoProgram_ops (c : Config) (v : Operand) :
    (servoProgram c v).2 = if wordAct1 (wordOf c v) || wordAct2 (wordOf c v) then servoOps c (wordOf c v) else [] := by
  unfold servoProgram
  split <;> rfl

theorem servoProgram_word (c : Config) (v : Operand) : (servoProgram c v).1.word = wordOf c v :=
  congrArg Response.word (servoProgram_response c v)

/-! ### Responses that differ in what no operation looks at -/

theorem State.rspRecord_of_resp {s : State} {r : Response} (hr : s.rst = false) (hq : s.seq = .resp r) :
    s.rspRecord = some r := by
  simp [State.rspRecord, hr, hq]

/-- An entry read takes its target from the response's word, and no operation looks at anything else of the response. -/
theorem State.perform_withResponse {s : State} (hg : s.sinkGrant = none) (todo : List Op) (t : Transient) (r : Response)
    (htarget : ∀ c, targetByte r.word c = targetByte t.rsp.word c) :
    s.perform todo { t with rsp := r } = (s.perform todo t).setSeq (.resp r) := by
  induction todo generalizing t s with
  | nil => rfl
  | cons op rest ih =>
    have hcommit : op.commit s.cfg s.nextAngle { t with rsp := r } = { op.commit s.cfg s.nextAngle t with rsp := r } := by
      cases op with
      | enter c => cases c <;> simp [Op.commit, Transient.setLane, htarget]
      | sense c => cases c <;> rfl
      | _ => rfl
    have hrequest : op.request s.cfg { t with rsp := r } = op.request s.cfg t := by
      cases op with
      | ramp c i => cases c <;> rfl
      | nudge c up => cases c <;> rfl
      | _ => rfl
    rw [State.perform_cons (State.not_stalled hg), State.perform_cons (State.not_stalled hg), hcommit, hrequest]
    exact ih (by simp [hg]) _ (by simpa using htarget)

/-- Commands with the same operations, status and targets leave a ready block the same trace, sink view and status. -/
theorem State.Ready.exec_same_effect {s t u : State} (h : s.Ready) {i j : Instr}
    (hops : (program s.cfg i).2 = (program s.cfg j).2)
    (hstatus : (program s.cfg i).1.status = (program s.cfg j).1.status)
    (htarget : ∀ c, targetByte (program s.cfg i).1.word c = targetByte (program s.cfg j).1.word c)
    (ht : exec i s = .next t) (hu : exec j s = .next u) :
    t.trace = u.trace ∧ t.view = u.view ∧ t.rspRecord.map Response.status = u.rspRecord.map Response.status := by
  rw [exec_ready h] at ht hu
  obtain rfl := Host.Outcome.next.inj ht
  obtain rfl := Host.Outcome.next.inj hu
  have hsame : s.perform (program s.cfg i).2 (.start (program s.cfg i).1) =
      (s.perform (program s.cfg j).2 (.start (program s.cfg j).1)).setSeq (.resp (program s.cfg i).1) := by
    rw [hops]
    exact State.perform_withResponse h.sink _ (.start (program s.cfg j).1) _ htarget
  refine ⟨by rw [hsame, State.setSeq_trace], by rw [hsame, State.setSeq_view], ?_⟩
  rw [State.rspRecord_of_resp (by simpa using h.rst) (State.perform_seq_none h.sink _ _),
    State.rspRecord_of_resp (by simpa using h.rst) (State.perform_seq_none h.sink _ _)]
  exact congrArg some hstatus

end Sys2Proof.Machine
end

section
/-! PROOF. The statements about descriptors, codes, words and hex sequences (spec/30_encoding.md). -/

namespace Sys2Proof.Machine

open Sys2Proof.Claims

/-! ### The descriptor -/

/-- Settles O5: bits 63:60 pick the decoder's row, and the fields a row takes of the operand are bits of the descriptor. -/
theorem operationTakesTheListedFields : Obligations.OperationTakesTheListedFields := by
  intro d h
  refine ⟨?_, ?_, ?_, ?_, ?_, ?_, ?_, ?_, ?_, ?_, ?_, ?_, ?_, ?_, ?_, ?_⟩ <;> intro hop <;>
    simp only [decode, Descriptor.op, hop, speedsOf, Descriptor.operand_extractLsb', Nat.reduceAdd, Nat.reduceLeDiff] <;> rfl

/-- Settles O6, code by code. -/
theorem keywordAndChannelCodes : Obligations.KeywordAndChannelCodes := ⟨by decide, by decide⟩

/-! ### The word -/

/-- Settles O8. A servo word is a motor word with the two bits exchanged. -/
theorem encodedWordsReturnTheirFields : Obligations.EncodedWordsReturnTheirFields := by
  intro x y p q
  rw [encodeServo_eq]
  exact ⟨⟨encodeMotor_toNat x y p q, wordLineA_encodeMotor x y p q, wordLineB_encodeMotor x y p q,
      wordLow_encodeMotor x y p q, wordHigh_encodeMotor x y p q, getLsbD_encodeMotor x y p q 18,
      getLsbD_encodeMotor x y p q 19⟩,
    encodeMotor_toNat y x p q, wordLineB_encodeMotor y x p q, wordLineA_encodeMotor y x p q,
    wordLow_encodeMotor y x p q, wordHigh_encodeMotor y x p q, getLsbD_encodeMotor y x p q 18,
    getLsbD_encodeMotor y x p q 19⟩

/-- Settles O9: a mask is a remainder, and the word's 20 bits hold every field. -/
theorem wordFieldsAreMasksAndShifts : Obligations.WordFieldsAreMasksAndShifts := by
  intro c v hl
  have mask20 (x : Nat) : x &&& 0xFFFFF = x % 2 ^ 20 := Nat.and_two_pow_sub_one_eq_mod x 20
  have mask8 (x : Nat) : x &&& 0xFF = x % 2 ^ 8 := Nat.and_two_pow_sub_one_eq_mod x 8
  have mask4 (x : Nat) : x &&& 0xF = x % 2 ^ 4 := Nat.and_two_pow_sub_one_eq_mod x 4
  simp only [wordOf_legal hl, wordLow, wordHigh, wordControl, BitVec.extractLsb'_toNat, Nat.shiftRight_eq_div_pow, mask20,
    mask8, mask4]
  refine ⟨?_, ?_, ?_, ?_⟩ <;> omega

/-! ### The hex form -/

/-- Settles O10: a code in neither range fails both tests. -/
theorem hexDigitValues : Obligations.HexDigitValues := by
  refine ⟨fun n hn => ?_, fun n hn => ?_, fun c hd hu => ?_⟩
  · have hcode : (BitVec.ofNat 8 (0x30 + n)).toNat = 0x30 + n := by rw [BitVec.toNat_ofNat]; omega
    rw [hexDigit, hcode, if_pos (by omega)]
    omega
  · have hcode : (BitVec.ofNat 8 (0x41 + n)).toNat = 0x41 + n := by rw [BitVec.toNat_ofNat]; omega
    rw [hexDigit, hcode, if_neg (by omega), if_pos (by omega)]
    omega
  · rw [hexDigit, if_neg hd, if_neg hu]

/-- Settles O11: the scan computes the sum, and the sum is below 16 to the power of the length. -/
theorem parseHexIsThePositionalSum : Obligations.ParseHexIsThePositionalSum := by
  intro cfg c
  refine ⟨fun hrej => if_pos hrej, fun hacc => ⟨?_, fun hmax => ?_⟩⟩
  · rw [← hexScan_reverse]
    exact if_neg hacc
  · have hlen : c.length ≤ 5 := le_trans (not_lt.mp fun hlong => hacc (.inr hlong)) hmax
    have hpow : 16 ^ c.length ≤ 16 ^ 5 := Nat.pow_le_pow_right (by decide) hlen
    have hsum := hexSum_lt c
    omega

/-! ### What the commands take from a word or a code -/

/-- Settles O25: the operand masks back to the encoded word, whose fields are those encoded. -/
theorem motorWordRoundTrip : Obligations.MotorWordRoundTrip := by
  intro lA lB sA sB s h
  rw [h.exec_motorRaw, wordOf_operand h.legal]
  simp only [wordResponse, driveEvents, wordLineA_encodeMotor, wordLineB_encodeMotor, wordControl_encodeMotor,
    wordHigh_encodeMotor, wordLow_encodeMotor]

/-- Settles O26: neither plan looks at the speeds, and no operation of a plan reads. -/
theorem keywordUnrecognizedOrStop : Obligations.KeywordUnrecognizedOrStop := fun speeds _ h =>
  ⟨fun code => h.exec_reads_nothing (i := .driveKw (.unrecognized code) speeds) fun _ => flatMap_primitiveOps_reads,
    h.exec_reads_nothing (i := .driveKw (.known .stop) speeds) fun _ => flatMap_primitiveOps_reads⟩

/-- Settles O43: operations, status and targets of both commands lie in the word's bits 17:0. -/
theorem controlBits18And19HaveNoEffect : Obligations.ControlBits18And19HaveNoEffect := by
  intro v w s t u h hvw
  obtain ⟨h17, h16, hlow, hhigh⟩ := wordFields_eq_of_low18 h.legal hvw
  have htarget (c : Servo) : targetByte (wordOf s.cfg v) c = targetByte (wordOf s.cfg w) c := by
    cases c with
    | one => exact hlow
    | two => exact hhigh
  constructor
  · have hops : motorOps (wordOf s.cfg v) = motorOps (wordOf s.cfg w) := by
      simp only [motorOps, wordLineA, wordLineB, h17, h16, hlow, hhigh]
    exact h.exec_same_effect hops rfl htarget
  · have hops : (servoProgram s.cfg v).2 = (servoProgram s.cfg w).2 := by
      have hact1 : wordAct1 (wordOf s.cfg v) = wordAct1 (wordOf s.cfg w) := h16
      have hact2 : wordAct2 (wordOf s.cfg v) = wordAct2 (wordOf s.cfg w) := h17
      simp only [servoProgram_ops, servoOps]
      rw [hact1, hact2]
    have hstatus : (servoProgram s.cfg v).1.status = (servoProgram s.cfg w).1.status := by
      simp only [servoProgram_response, wordResponse, servoWordStatus, h17, h16]
    refine h.exec_same_effect hops hstatus fun c => ?_
    simpa only [program, servoProgram_word] using htarget c

end Sys2Proof.Machine
end

section
/-! SUPPORT. The hex form character by character (R68, R69): the digit of a hex character, a sequence with one character
replaced, and what a hex command does with its sequence's sum. -/

namespace Sys2Proof.Machine

open Sys2Proof.Claims

/-! ### Digits -/

/-- The digit of the hex character of a nibble is the nibble (R68). -/
theorem hexDigit_hexChar (n : BitVec 4) : hexDigit (hexChar n) = n.toNat := by
  have hn := n.isLt
  obtain ⟨decimal, letter, -⟩ := hexDigitValues
  unfold hexChar
  split
  · next h => exact decimal n.toNat (by omega)
  · next h => rw [letter (n.toNat - 10) (by omega)]; omega

/-- The rendering of a word has the word's value as its sum (R91). -/
theorem hexSum_hexRender (w : CmdWord) : hexSum (hexRender w) = w.toNat := by
  have hw := w.isLt
  simp only [hexRender, hexSum_cons, hexDigit_hexChar, BitVec.extractLsb'_toNat, Nat.shiftRight_eq_div_pow,
    List.length_cons, List.length_nil, show hexSum [] = 0 from rfl]
  omega

/-- Replacing a character exchanges its term of the sum (R69). -/
theorem hexSum_set (c : HexSeq) {k : Nat} (hk : k < c.length) (x : Byte) :
    hexSum (c.set k x) + hexDigit (c.getD k 0) * 16 ^ (c.length - 1 - k) =
      hexSum c + hexDigit x * 16 ^ (c.length - 1 - k) := by
  induction c generalizing k with
  | nil => exact absurd hk (Nat.not_lt_zero k)
  | cons y c ih =>
    cases k with
    | zero =>
      simp only [List.set_cons_zero, List.getD_cons_zero, hexSum_cons, List.length_cons, Nat.add_sub_cancel, Nat.sub_zero]
      omega
    | succ k =>
      have hrest := ih (Nat.lt_of_succ_lt_succ hk)
      have hplace : (y :: c).length - 1 - (k + 1) = c.length - 1 - k := by rw [List.length_cons]; omega
      rw [List.set_cons_succ, List.getD_cons_succ, hexSum_cons, hexSum_cons, List.length_set, hplace]
      omega

/-! ### Sequences -/

/-- A sequence parses, to its sum, exactly where its length is not rejected (R67, R69). -/
theorem parseHex_eq_some_iff (cfg : Config) (c : HexSeq) (n : Nat) :
    parseHex cfg c = some n ↔ ¬ HexRejected cfg c ∧ hexSum c = n := by
  obtain ⟨hrej, hacc⟩ := parseHexIsThePositionalSum cfg c
  by_cases h : HexRejected cfg c
  · simp [hrej h, h]
  · simp [(hacc h).1, h]

theorem hexProgram_of_rejected {cfg : Config} {c : HexSeq} (h : HexRejected cfg c) (f : Operand → Response × List Op) :
    hexProgram cfg c f = (plainResponse .ignoredLength, []) := by
  rw [hexProgram, (parseHexIsThePositionalSum cfg c).1 h]

theorem hexProgram_of_accepted {cfg : Config} {c : HexSeq} (h : ¬ HexRejected cfg c) (f : Operand → Response × List Op) :
    hexProgram cfg c f = f (hexOperand c) := by
  rw [hexProgram, ((parseHexIsThePositionalSum cfg c).2 h).1]
  rfl

/-- The reply written out from the spec for an input value is the model's response with the masked word (R80, R150). -/
theorem wordReply_eq_wordResponse {cfg : Config} (hl : configLegal cfg = true) (st : Status) (v : Operand) :
    wordReply st v = wordResponse st (wordOf cfg v) := by
  have hfield (start len : Nat) (h : start + len ≤ 20) :
      (v.extractLsb' 0 20).extractLsb' start len = v.extractLsb' start len := by
    apply BitVec.eq_of_getLsbD_eq
    intro i hi
    simp [show start + i < 20 by omega]
  simp only [wordOf_legal hl, wordReply, wordResponse, wordControl, wordHigh, wordLow, hfield, Nat.reduceAdd,
    Nat.reduceLeDiff]

end Sys2Proof.Machine
end

section
/-! PROOF. The statements about the word decoder's commands and the hex form (spec/40_command_word_decoder.md). -/

namespace Sys2Proof.Machine

open Sys2Proof.Claims

/-- A command without operations answers its response at once, and no event is issued. -/
theorem State.Ready.exec_no_operations {s : State} (h : s.Ready) {i : Instr} {r : Response}
    (hp : program s.cfg i = (r, [])) : exec i s = .next (s.finish r []) := by
  have hexec := h.exec_reads_nothing (i := i) (by simp [hp])
  rwa [hp] at hexec

/-- Settles O21: DECODE has no operations, and its response is the masked word's. -/
theorem decodeAnswersTheWord : Obligations.DecodeAnswersTheWord := by
  intro v s h
  rw [wordReply_eq_wordResponse h.legal]
  exact h.exec_no_operations rfl

/-- Settles O22: neither outcome of the parse has operations. -/
theorem parseHexAnswersTheParsedWord : Obligations.ParseHexAnswersTheParsedWord := by
  intro c s h
  refine ⟨fun hrej => h.exec_no_operations ?_, fun hacc => h.exec_no_operations ?_⟩
  · rw [program, hexProgram_of_rejected hrej]
    rfl
  · rw [program, hexProgram_of_accepted hacc, wordReply_eq_wordResponse h.legal]

/-- Settles O12. Each law is one about the sum: its value for a rendering, its bound, a leading digit 0, and one term
exchanged for 0. -/
theorem hexFormLaws : Obligations.HexFormLaws := by
  intro cfg
  refine ⟨fun hmax w => ?_, fun hl hmax c n hn => ?_, fun c hne hlt => ?_, fun c n k x hn hk hdec hlet => ?_⟩
  · refine (parseHex_eq_some_iff cfg _ _).mpr ⟨?_, hexSum_hexRender w⟩
    rintro (hlen | hlen) <;> simp only [hexRender, List.length_cons, List.length_nil] at hlen <;> omega
  · obtain ⟨hacc, rfl⟩ := (parseHex_eq_some_iff cfg c n).mp hn
    have hbound := ((parseHexIsThePositionalSum cfg c).2 hacc).2 hmax
    rw [wordOf_parsedOperand hl, BitVec.toNat_ofNat, Nat.mod_eq_of_lt (by omega)]
  · have hc : parseHex cfg c = some (hexSum c) :=
      (parseHex_eq_some_iff cfg c _).mpr ⟨by unfold HexRejected; omega, rfl⟩
    have hzero : hexDigit 0x30 = 0 := rfl
    rw [hc, parseHex_eq_some_iff, hexSum_cons, hzero, HexRejected, List.length_cons]
    omega
  · obtain ⟨hacc, rfl⟩ := (parseHex_eq_some_iff cfg c n).mp hn
    obtain ⟨-, -, hother⟩ := hexDigitValues
    have hset := hexSum_set c hk x
    rw [hother x hdec hlet] at hset
    rw [parseHex_eq_some_iff, HexRejected, List.length_set]
    exact ⟨hacc, by omega⟩

end Sys2Proof.Machine
end

section
/-! SUPPORT. The frame of a command: which actuator an operation writes (R25, R49), what performing and executing leave
unchanged, and what the commands of each unit write. -/

namespace Sys2Proof.Machine

open Sys2Proof.Claims

/-! ### Actuators -/

/-- The actuators of the sink (R41): two direction lines, two duty channels, two servo channels. -/
inductive Actuator where
  | line (w : Wheel)
  | duty (w : Wheel)
  | pulse (s : Servo)

/-- Two sink views have the same entry for an actuator. -/
def SinkView.AgreeAt (v w : SinkView) : Actuator → Prop
  | .line .a => v.lineA = w.lineA
  | .line .b => v.lineB = w.lineB
  | .duty .a => v.dutyA = w.dutyA
  | .duty .b => v.dutyB = w.dutyB
  | .pulse .one => v.pulse1 = w.pulse1
  | .pulse .two => v.pulse2 = w.pulse2

theorem SinkView.AgreeAt.refl (v : SinkView) (x : Actuator) : v.AgreeAt v x := by
  rcases x with ⟨⟨⟩⟩ | ⟨⟨⟩⟩ | ⟨⟨⟩⟩ <;> rfl

theorem SinkView.AgreeAt.trans {u v w : SinkView} {x : Actuator} (huv : u.AgreeAt v x) (hvw : v.AgreeAt w x) :
    u.AgreeAt w x := by
  rcases x with ⟨⟨⟩⟩ | ⟨⟨⟩⟩ | ⟨⟨⟩⟩ <;> exact Eq.trans huv hvw

/-- The actuator an event writes. -/
def Event.writes : Event → Option Actuator
  | .dir l _ => some (.line l)
  | .duty w _ => some (.duty w)
  | .pulse s _ => some (.pulse s)
  | .read _ _ => none
  | .sleep _ => none

/-- The actuator an operation writes. -/
def Op.writes : Op → Option Actuator
  | .dir l _ => some (.line l)
  | .duty w _ => some (.duty w)
  | .ramp s _ => some (.pulse s)
  | .nudge s _ => some (.pulse s)
  | .sweep s _ => some (.pulse s)
  | .enter _ => none
  | .sense _ => none
  | .frameSleep _ => none
  | .stepSleep => none
  | .sweepSleep _ => none

@[simp] theorem Op.event_writes (op : Op) (c : Config) (a : Byte) (t : Transient) :
    ((op.request c t).event a).writes = op.writes := by
  cases op <;> rfl

/-- An event changes the entry of the actuator it writes and no other (R25). -/
theorem SinkView.after_agreeAt {e : Event} {x : Actuator} (h : e.writes ≠ some x) (v : SinkView) :
    (v.after e).AgreeAt v x := by
  unfold SinkView.after
  split <;> rcases x with ⟨⟨⟩⟩ | ⟨⟨⟩⟩ | ⟨⟨⟩⟩ <;> simp [SinkView.AgreeAt, Event.writes] at h ⊢

/-! ### What performing leaves unchanged -/

/-- What a change of phase and the completion of each of the operations keep, performing them keeps. -/
theorem State.perform_keeps {P : State → Prop} (hq : ∀ s q, P s → P (s.setSeq q)) {todo : List Op}
    (hc : ∀ op ∈ todo, ∀ c t a s, P s → P (s.completed ((op.request c t).event a))) (t : Transient) {s : State}
    (h : P s) : P (s.perform todo t) := by
  induction todo generalizing t s with
  | nil => exact hq s _ h
  | cons op rest ih =>
    unfold State.perform
    split
    · exact hq s _ h
    · exact ih (fun o ho => hc o (List.mem_cons_of_mem _ ho)) _ (hc op List.mem_cons_self _ _ _ s h)

theorem State.perform_agreeAt {todo : List Op} {x : Actuator} (h : ∀ op ∈ todo, op.writes ≠ some x) (t : Transient)
    (s : State) : (s.perform todo t).view.AgreeAt s.view x := by
  refine State.perform_keeps (P := fun u => u.view.AgreeAt s.view x) (fun u q hu => hu) (fun op hop c t a u hu => ?_) t
    (.refl s.view x)
  rw [State.completed_view]
  exact (SinkView.after_agreeAt (by simpa using h op hop) u.view).trans hu

/-- Operations that read nothing use no angle (R24). -/
theorem State.perform_draws {todo : List Op} (h : ∀ op ∈ todo, op.reads = false) (t : Transient) (s : State) :
    (s.perform todo t).angles = s.angles ∧ (s.perform todo t).draws = s.draws := by
  refine State.perform_keeps (P := fun u => u.angles = s.angles ∧ u.draws = s.draws) (fun u q hu => hu)
    (fun op hop c t a u hu => ?_) t ⟨rfl, rfl⟩
  simpa [State.completed, h op hop] using hu

/-! ### What a command leaves unchanged -/

/-- A command that answers a next state was performed as far as the sink let it, or waits. -/
theorem exec_next {i : Instr} {s t : State} (h : exec i s = .next t) :
    configLegal s.cfg = true ∧ (t = s.perform (program s.cfg i).2 (.start (program s.cfg i).1) ∨ t = s) := by
  rw [exec_eq_accept] at h
  obtain ⟨hl, ⟨-, ht⟩ | ⟨-, ht⟩⟩ := State.accept_next h
  · exact ⟨hl, .inl ht⟩
  · exact ⟨hl, .inr ht⟩

/-- No command changes the configuration, the host's inputs, the sampled command or the responses taken. -/
theorem exec_inputs {i : Instr} {s t : State} (h : exec i s = .next t) :
    t.cfg = s.cfg ∧ t.rst = s.rst ∧ t.offers = s.offers ∧ t.rspReady = s.rspReady ∧ t.sampled = s.sampled ∧
      t.responses = s.responses := by
  obtain ⟨-, rfl | rfl⟩ := exec_next h <;> simp

theorem exec_agreeAt {i : Instr} {s t : State} (h : exec i s = .next t) (x : Actuator)
    (hops : configLegal s.cfg = true → ∀ op ∈ (program s.cfg i).2, op.writes ≠ some x) : t.view.AgreeAt s.view x := by
  obtain ⟨hl, rfl | rfl⟩ := exec_next h
  · exact State.perform_agreeAt (hops hl) _ s
  · exact .refl t.view x

theorem exec_draws {i : Instr} {s t : State} (h : exec i s = .next t)
    (hops : ∀ op ∈ (program s.cfg i).2, op.reads = false) : t.angles = s.angles ∧ t.draws = s.draws := by
  obtain ⟨-, rfl | rfl⟩ := exec_next h
  · exact State.perform_draws hops _ s
  · exact ⟨rfl, rfl⟩

/-- A command without operations leaves the trace, the sink view, the angles and the sink's grant. -/
theorem exec_no_operations {i : Instr} {s t : State} (h : exec i s = .next t) (hops : (program s.cfg i).2 = []) :
    t.trace = s.trace ∧ t.view = s.view ∧ t.angles = s.angles ∧ t.draws = s.draws ∧ t.sinkGrant = s.sinkGrant := by
  obtain ⟨-, rfl | rfl⟩ := exec_next h
  · simp [hops]
  · simp

/-! ### What the commands write -/

theorem mem_hexProgram {c : Config} {h : HexSeq} {f : Operand → Response × List Op} {op : Op}
    (hop : op ∈ (hexProgram c h f).2) : op ∈ (f (hexOperand h)).2 := by
  by_cases hrej : HexRejected c h
  · simp [hexProgram_of_rejected hrej] at hop
  · rwa [hexProgram_of_accepted hrej] at hop

theorem mem_channelProgram {ch : ChannelSel} {f : Servo → List Op} {op : Op} (h : op ∈ (channelProgram ch f).2) :
    ∃ s, ch = .channel s ∧ op ∈ f s := by
  cases ch with
  | channel s => exact ⟨s, rfl, h⟩
  | noChannel code => simp [channelProgram] at h

/-- The decoder's and the reserved commands have no operations (R84, R88, R154). -/
theorem program_no_operations (c : Config) {i : Instr} (hd : isDrive i = false) (hs : isServo i = false) :
    (program c i).2 = [] := by
  cases i with
  | parseHex h => exact List.eq_nil_iff_forall_not_mem.mpr fun op hop => by simpa using mem_hexProgram hop
  | motorRaw v | motorHex h | driveKw k speeds | driveVec a b => simp [isDrive] at hd
  | servoRaw v | servoHex h | servoStep ch up | servoSweep ch up => simp [isServo] at hs
  | _ => rfl

theorem mem_driveOps {lA lB : Bool} {sA sB : Byte} {op : Op} (h : op ∈ driveOps lA lB sA sB) :
    (∃ l level, op = .dir l level) ∨ ∃ w v, op = .duty w v := by
  simp only [driveOps, List.mem_cons, List.not_mem_nil, or_false] at h
  obtain rfl | rfl | rfl | rfl := h <;> simp

/-- The operations of a drive command set lines and duties (R94, R96, R97). -/
theorem mem_program_of_isDrive {c : Config} {i : Instr} (hd : isDrive i = true) {op : Op} (h : op ∈ (program c i).2) :
    (∃ l level, op = .dir l level) ∨ ∃ w v, op = .duty w v := by
  cases i with
  | motorRaw v => exact mem_driveOps h
  | motorHex c => exact mem_driveOps (mem_hexProgram h)
  | driveKw k speeds =>
    obtain ⟨p, -, hp⟩ := List.mem_flatMap.mp h
    exact mem_primitiveOps hp
  | driveVec a b =>
    simp only [program] at h
    split at h
    · obtain ⟨p, -, hp⟩ := List.mem_flatMap.mp h
      exact mem_primitiveOps hp
    · simp at h
  | _ => simp [isDrive] at hd

/-- The bit of a servo word that activates a channel (R122). -/
def activeBit : Servo → Nat
  | .one => 16
  | .two => 17

theorem wordOf_activeBit {c : Config} (hl : configLegal c = true) (v : Operand) (s : Servo) :
    (wordOf c v).getLsbD (activeBit s) = v.getLsbD (activeBit s) := by
  rw [wordOf_legal hl]
  cases s <;> simp [activeBit]

/-- The servo channels whose pulse a command may write: those its word activates (R122, R137), or the one it selects
(R146). -/
def MayPulse (c : Config) (s : Servo) : Instr → Prop
  | .servoRaw v => (wordOf c v).getLsbD (activeBit s) = true
  | .servoHex h => (wordOf c (hexOperand h)).getLsbD (activeBit s) = true
  | .servoStep ch _ => ch = .channel s
  | .servoSweep ch _ => ch = .channel s
  | _ => False

theorem writes_servoProgram {c : Config} {v : Operand} {op : Op} (h : op ∈ (servoProgram c v).2) {x : Actuator}
    (hx : op.writes = some x) : ∃ s, x = .pulse s ∧ (wordOf c v).getLsbD (activeBit s) = true := by
  rw [servoProgram_ops, List.mem_ite_nil_right] at h
  obtain ⟨s, rfl⟩ | ⟨i, -, rfl | ⟨rfl, hact⟩ | ⟨rfl, hact⟩⟩ := mem_servoOps h.2
  · cases hx
  · cases hx
  · exact ⟨.one, (Option.some.inj hx).symm, hact⟩
  · exact ⟨.two, (Option.some.inj hx).symm, hact⟩

theorem writes_stepOps {s : Servo} {up : Bool} {op : Op} (h : op ∈ stepOps s up) {x : Actuator}
    (hx : op.writes = some x) : x = .pulse s := by
  simp only [stepOps, List.mem_cons, List.not_mem_nil, or_false] at h
  obtain rfl | rfl | rfl := h
  · cases hx
  · exact (Option.some.inj hx).symm
  · cases hx

theorem writes_sweepOps {c : Config} (hl : configLegal c = true) {s : Servo} {up : Bool} {op : Op}
    (h : op ∈ sweepOps c s up) {x : Actuator} (hx : op.writes = some x) : x = .pulse s := by
  obtain ⟨p, -, -, rfl | rfl⟩ := mem_sweepOps hl h
  · exact (Option.some.inj hx).symm
  · cases hx

/-- A servo command writes nothing but pulses of its own channels. -/
theorem writes_of_isServo {c : Config} (hl : configLegal c = true) {i : Instr} (hs : isServo i = true) {op : Op}
    (h : op ∈ (program c i).2) {x : Actuator} (hx : op.writes = some x) : ∃ s, x = .pulse s ∧ MayPulse c s i := by
  cases i with
  | servoRaw v => exact writes_servoProgram h hx
  | servoHex c => exact writes_servoProgram (mem_hexProgram h) hx
  | servoStep ch up =>
    obtain ⟨s, rfl, hop⟩ := mem_channelProgram h
    exact ⟨s, writes_stepOps hop hx, rfl⟩
  | servoSweep ch up =>
    obtain ⟨s, rfl, hop⟩ := mem_channelProgram h
    exact ⟨s, writes_sweepOps hl hop hx, rfl⟩
  | _ => simp [isServo] at hs

/-- A servo command leaves the pulse of every channel that is not its own. -/
theorem exec_keeps_pulse {i : Instr} {s t : State} (h : exec i s = .next t) (hs : isServo i = true) (ch : Servo)
    (hn : configLegal s.cfg = true → ¬ MayPulse s.cfg ch i) : t.view.AgreeAt s.view (.pulse ch) :=
  exec_agreeAt h _ fun hl op hop hx => by
    obtain ⟨ch', heq, hp⟩ := writes_of_isServo hl hs hop hx
    cases heq
    exact hn hl hp

/-- A servo command whose channels are those the word of `v` activates leaves the pulse of a channel whose bit is 0. -/
theorem exec_keeps_inactive {i : Instr} {s t : State} (h : exec i s = .next t) (hs : isServo i = true) {v : Operand}
    {ch : Servo} (hv : MayPulse s.cfg ch i → (wordOf s.cfg v).getLsbD (activeBit ch) = true)
    (hbit : v.getLsbD (activeBit ch) = false) : t.view.AgreeAt s.view (.pulse ch) :=
  exec_keeps_pulse h hs ch fun hl hp => by
    have hactive := hv hp
    rw [wordOf_activeBit hl, hbit] at hactive
    exact Bool.false_ne_true hactive

/-- A servo command leaves every line and every duty. -/
theorem exec_keeps_drive {i : Instr} {s t : State} (h : exec i s = .next t) (hs : isServo i = true) {x : Actuator}
    (hx : ∀ ch, x ≠ .pulse ch) : t.view.AgreeAt s.view x :=
  exec_agreeAt h x fun hl op hop hw => by
    obtain ⟨ch, heq, -⟩ := writes_of_isServo hl hs hop hw
    exact hx ch heq

end Sys2Proof.Machine
end

section
/-! PROOF. The frame of every command (spec/40_command_word_decoder.md R92, spec/41 R96, spec/42 R122, R137, R146,
spec/60_exceptions.md R154). -/

namespace Sys2Proof.Machine

open Sys2Proof.Claims

/-- Settles O49: a command changes only what its operations write and read, and those are known for each unit. -/
theorem commandFrame : Obligations.CommandFrame := by
  intro i s t h
  refine ⟨exec_inputs h, fun hd hs => exec_no_operations h (program_no_operations s.cfg hd hs), fun hd => ?drive, ?stop,
    fun hs => ?servo, ?raw, ?hex, ?noChannel, ?channel1, ?channel2⟩
  case drive =>
    have hpulse (ch : Servo) : t.view.AgreeAt s.view (.pulse ch) := by
      refine exec_agreeAt h _ fun _ op hop => ?_
      obtain ⟨l, level, rfl⟩ | ⟨w, v, rfl⟩ := mem_program_of_isDrive hd hop <;> simp [Op.writes]
    refine ⟨hpulse .one, hpulse .two, exec_draws h fun op hop => ?_⟩
    obtain ⟨l, level, rfl⟩ | ⟨w, v, rfl⟩ := mem_program_of_isDrive hd hop <;> rfl
  case stop =>
    rintro speeds rfl
    have hline (w : Wheel) : t.view.AgreeAt s.view (.line w) :=
      exec_agreeAt h _ fun _ => by simp [program, keywordPlan, kwEntry, primitiveOps, Op.writes]
    exact ⟨hline .a, hline .b⟩
  case servo =>
    exact ⟨exec_keeps_drive h hs (x := .line .a) nofun, exec_keeps_drive h hs (x := .line .b) nofun,
      exec_keeps_drive h hs (x := .duty .a) nofun, exec_keeps_drive h hs (x := .duty .b) nofun⟩
  case raw =>
    rintro v rfl
    exact ⟨exec_keeps_inactive (ch := .one) h rfl id, exec_keeps_inactive (ch := .two) h rfl id⟩
  case hex =>
    rintro c rfl
    exact ⟨exec_keeps_inactive (ch := .one) h rfl id, exec_keeps_inactive (ch := .two) h rfl id⟩
  case noChannel => rintro code up (rfl | rfl) <;> exact exec_no_operations h rfl
  case channel1 => rintro up (rfl | rfl) <;> exact exec_keeps_pulse h rfl .two fun _ => by simp [MayPulse]
  case channel2 => rintro up (rfl | rfl) <;> exact exec_keeps_pulse h rfl .one fun _ => by simp [MayPulse]

end Sys2Proof.Machine
end

section
/-! SUPPORT. Drive commands at a ready block: the events of primitives (R94 to R96), the fields of a motor word (R97),
and the primitives of keywords (R103 to R105) and vectors (R108 to R110). -/

namespace Sys2Proof.Machine

open Sys2Proof.Claims

/-! ### Events of primitives -/

/-- The events a primitive issues (R94, R96). -/
def primitiveEvents (c : Config) : Primitive → List Event
  | .go p sA sB => driveEvents (levelsOf c p).a (levelsOf c p).b sA sB
  | .stop => stopEvents

theorem map_event_primitiveOps (c : Config) (t : Transient) (p : Primitive) :
    (primitiveOps c p).map (fun op => (op.request c t).event 0) = primitiveEvents c p := by
  cases p <;> rfl

/-- A command whose operations are those of primitives issues the primitives' events. -/
theorem State.Ready.exec_primitives {s : State} (h : s.Ready) {i : Instr} {r : Response} {ps : List Primitive}
    (hp : program s.cfg i = (r, ps.flatMap (primitiveOps s.cfg))) :
    exec i s = .next (s.finish r (ps.flatMap (primitiveEvents s.cfg))) := by
  rw [h.exec_reads_nothing (by rw [hp]; exact fun _ => flatMap_primitiveOps_reads), hp]
  simp only [List.map_flatMap, map_event_primitiveOps]

/-! ### Motor words -/

/-- Commands with the same response and operations have the same meaning. -/
theorem exec_congr {s : State} {i j : Instr} (hp : program s.cfg i = program s.cfg j) : exec i s = exec j s := by
  rw [exec_eq_accept, exec_eq_accept, hp]

/-- The fields of the masked word are the input value's bits (R63, R64). -/
theorem motorEvents_eq_driveEvents {c : Config} (hl : configLegal c = true) (v : Operand) :
    motorEvents v =
      driveEvents (wordLineA (wordOf c v)) (wordLineB (wordOf c v)) (wordLow (wordOf c v)) (wordHigh (wordOf c v)) := by
  have hlineA : (wordOf c v).getLsbD 17 = v.getLsbD 17 := wordOf_activeBit hl v .two
  have hlineB : (wordOf c v).getLsbD 16 = v.getLsbD 16 := wordOf_activeBit hl v .one
  have hreply := wordReply_eq_wordResponse hl .ok v
  have hlow : v.extractLsb' 0 8 = wordLow (wordOf c v) := congrArg Response.low hreply
  have hhigh : v.extractLsb' 8 8 = wordHigh (wordOf c v) := congrArg Response.high hreply
  rw [motorEvents, wordLineA, wordLineB, hlineA, hlineB, hlow, hhigh]

/-! ### Keywords -/

/-- `clamp` between bounds in order, by maximum and minimum (R10). -/
theorem clamp_eq_max_min {lo hi : Int} (h : lo ≤ hi) (v : Int) : clamp v lo hi = max lo (min v hi) := by
  unfold clamp
  split
  · omega
  · split <;> omega

theorem adjustedSpeed_baseSpeeds (c : Config) (e : KwEntry) (speeds : Option SpeedPair) :
    (adjustedSpeed c (baseSpeeds c speeds).a e.offA, adjustedSpeed c (baseSpeeds c speeds).b e.offB) =
      adjusted c e speeds := by
  cases speeds <;> rfl

/-- The plan of a direction keyword by R105, from the adjusted speeds of R103. -/
theorem keywordPlan_eq_ite {c : Config} {k : Keyword} {e : KwEntry} (he : kwEntry c.kwTable k = some e)
    (speeds : Option SpeedPair) [Decidable (DutyRange (adjusted c e speeds).1 ∧ DutyRange (adjusted c e speeds).2)] :
    keywordPlan c (.known k) speeds =
      if DutyRange (adjusted c e speeds).1 ∧ DutyRange (adjusted c e speeds).2 then
        (.ok, [.go e.prim (BitVec.ofInt 8 (adjusted c e speeds).1) (BitVec.ofInt 8 (adjusted c e speeds).2)])
      else if c.kwRangeMode = .reject then (.rejectedRange, [])
      else (.ok, [.go e.prim (BitVec.ofInt 8 (max 0 (min (adjusted c e speeds).1 255)))
        (BitVec.ofInt 8 (max 0 (min (adjusted c e speeds).2 255)))]) := by
  simp only [← adjustedSpeed_baseSpeeds, DutyRange, keywordPlan, he, keywordPrimitive, speedInRange, Bool.and_eq_true,
    decide_eq_true_eq, clamp_eq_max_min (show (0 : Int) ≤ 255 by decide)]
  split_ifs with hin hreject
  · rfl
  · rw [hreject]
  · cases hmode : c.kwRangeMode with
    | reject => exact absurd hmode hreject
    | saturate => rfl

/-- A keyword at a ready block issues the events of its plan (R106). -/
theorem State.Ready.exec_driveKw {s : State} (h : s.Ready) {k : KwCode} {speeds : Option SpeedPair} {st : Status}
    {ps : List Primitive} (hplan : keywordPlan s.cfg k speeds = (st, ps)) :
    exec (.driveKw k speeds) s = .next (s.finish (zeroReply st) (ps.flatMap (primitiveEvents s.cfg))) :=
  h.exec_primitives (by rw [program, hplan]; rfl)

theorem dutyRange_byte (x : Byte) : DutyRange x.toNat := by
  have hx := x.isLt
  unfold DutyRange
  omega

theorem goEvents_bytes (l : Levels) (sA sB : Byte) : goEvents l sA.toNat sB.toNat = driveEvents l.a l.b sA sB := by
  simp [goEvents]

/-- The levels of a primitive are the document's wherever `DIR_LEVELS` is the default (R95). -/
theorem levelsOf_standard {c : Config} (hd : c.dirLevels = DirLevels.standard) (p : DirPrim) :
    levelsOf c p = levelsOf Config.document p := by
  cases p <;> rw [levelsOf, hd] <;> rfl

/-! ### Vectors -/

/-- The first sign case a vector matches (R108). -/
def firstCase (a b : Int) : DirPrim :=
  if 0 ≤ a ∧ 0 ≤ b then .goForward
  else if a ≤ 0 ∧ b ≤ 0 then .goBackward
  else if a ≤ 0 ∧ 0 ≤ b then .goLeft
  else .goRight

/-- The last sign case a vector matches (R109). -/
def lastCase (a b : Int) : DirPrim :=
  if 0 ≤ a ∧ b ≤ 0 then .goRight
  else if a ≤ 0 ∧ 0 ≤ b then .goLeft
  else if a ≤ 0 ∧ b ≤ 0 then .goBackward
  else .goForward

theorem vecChain_eq_firstCase (a b : Int) : vecChain a b = [vecGo (firstCase a b) a b] := by
  unfold vecChain firstCase
  have hmatch : ¬ (0 ≤ a ∧ 0 ≤ b) → ¬ (a ≤ 0 ∧ b ≤ 0) → ¬ (a ≤ 0 ∧ 0 ≤ b) → 0 ≤ a ∧ b ≤ 0 := by omega
  split_ifs with hf hb hl hr
  · rfl
  · rfl
  · rfl
  · rfl
  · exact absurd (hmatch hf hb hl) hr

/-- The cases matched before the last one play no part in how a vector ends. -/
theorem vecIndependent_ends (a b : Int) : ∃ ps, vecIndependent a b = ps ++ [vecGo (lastCase a b) a b] := by
  unfold vecIndependent lastCase
  have hmatch : ¬ (0 ≤ a ∧ b ≤ 0) → ¬ (a ≤ 0 ∧ 0 ≤ b) → ¬ (a ≤ 0 ∧ b ≤ 0) → 0 ≤ a ∧ 0 ≤ b := by omega
  by_cases hr : 0 ≤ a ∧ b ≤ 0
  · exact ⟨_, by rw [if_pos hr, if_pos hr]⟩
  rw [if_neg hr, if_neg hr, List.append_nil]
  by_cases hl : a ≤ 0 ∧ 0 ≤ b
  · exact ⟨_, by rw [if_pos hl, if_pos hl]⟩
  rw [if_neg hl, if_neg hl, List.append_nil]
  by_cases hb : a ≤ 0 ∧ b ≤ 0
  · exact ⟨_, by rw [if_pos hb, if_pos hb]⟩
  rw [if_neg hb, if_neg hb, List.append_nil]
  exact ⟨[], by rw [if_pos (hmatch hr hl hb)]; rfl⟩

theorem absInt_eq_natAbs (v : Int) : absInt v = v.natAbs := by
  unfold absInt
  split <;> omega

/-- The sign case a vector drives last under the configuration's `VEC_BRANCHES` (R108, R109). -/
def decidingCase (c : Config) (a b : Int) : DirPrim :=
  match c.vecBranches with
  | .chain => firstCase a b
  | .independent => lastCase a b

theorem vecPrimitives_ends (c : Config) (a b : Int) :
    ∃ ps, vecPrimitives c a b = ps ++ [vecGo (decidingCase c a b) a b] := by
  unfold vecPrimitives decidingCase
  cases c.vecBranches with
  | chain => exact ⟨[], vecChain_eq_firstCase a b⟩
  | independent => exact vecIndependent_ends a b

/-- The duties of a sign case are the components' magnitudes (R108). -/
theorem primitiveEvents_vecGo (c : Config) (p : DirPrim) {a b x y : Int} (hx : x = a.natAbs) (hy : y = b.natAbs) :
    primitiveEvents c (vecGo p a b) = goEvents (levelsOf c p) x y := by
  rw [vecGo, magnitude, magnitude, absInt_eq_natAbs, absInt_eq_natAbs, ← hx, ← hy]
  rfl

/-- Under `chain` the primitives' events are those of the first matching case (R108). -/
theorem flatMap_vecChain (c : Config) (a b : Int) : (vecChain a b).flatMap (primitiveEvents c) = chainEvents c a b := by
  rw [vecChain_eq_firstCase, List.flatMap_singleton]
  unfold firstCase chainEvents
  by_cases hf : 0 ≤ a ∧ 0 ≤ b
  · rw [if_pos hf, if_pos hf]
    exact primitiveEvents_vecGo c _ (by omega) (by omega)
  rw [if_neg hf, if_neg hf]
  by_cases hb : a ≤ 0 ∧ b ≤ 0
  · rw [if_pos hb, if_pos hb]
    exact primitiveEvents_vecGo c _ (by omega) (by omega)
  rw [if_neg hb, if_neg hb]
  by_cases hl : a ≤ 0
  · rw [if_pos hl, if_pos ⟨hl, by omega⟩]
    exact primitiveEvents_vecGo c _ (by omega) (by omega)
  · rw [if_neg hl, if_neg (by omega)]
    exact primitiveEvents_vecGo c _ (by omega) (by omega)

/-- The events of one sign case of R109, where it matches. -/
theorem flatMap_ite_vecGo (c : Config) (p : DirPrim) {P : Prop} [Decidable P] {a b x y : Int}
    (hxy : P → x = a.natAbs ∧ y = b.natAbs) :
    (if P then [vecGo p a b] else []).flatMap (primitiveEvents c) = if P then goEvents (levelsOf c p) x y else [] := by
  split
  · next hP =>
    obtain ⟨hx, hy⟩ := hxy hP
    rw [List.flatMap_singleton, primitiveEvents_vecGo c p hx hy]
  · rfl

/-- Under `independent` the primitives' events are those of every matching case in order (R109). -/
theorem flatMap_vecIndependent (c : Config) (a b : Int) :
    (vecIndependent a b).flatMap (primitiveEvents c) = independentEvents c a b := by
  simp only [vecIndependent, List.flatMap_append]
  rw [flatMap_ite_vecGo c .goForward (x := a) (y := b) (by omega),
    flatMap_ite_vecGo c .goBackward (x := -a) (y := -b) (by omega),
    flatMap_ite_vecGo c .goLeft (x := -a) (y := b) (by omega),
    flatMap_ite_vecGo c .goRight (x := a) (y := -b) (by omega)]
  rfl

/-- The direction events of a vector under each setting of `VEC_BRANCHES`. -/
theorem flatMap_vecPrimitives (c : Config) (a b : Int) :
    (c.vecBranches = .chain → (vecPrimitives c a b).flatMap (primitiveEvents c) = chainEvents c a b) ∧
      (c.vecBranches = .independent →
        (vecPrimitives c a b).flatMap (primitiveEvents c) = independentEvents c a b) := by
  refine ⟨fun hchain => ?_, fun hindep => ?_⟩
  · rw [vecPrimitives, hchain, flatMap_vecChain]
  · rw [vecPrimitives, hindep, flatMap_vecIndependent]

theorem vecStops_iff (c : Config) (a b : Int) :
    vecStops c a b = true ↔ a.natAbs ≤ c.stopThreshold ∧ b.natAbs ≤ c.stopThreshold := by
  simp only [vecStops, absInt_eq_natAbs, decide_eq_true_eq]
  omega

/-- A vector's events are its direction cases' and then the stop override's (R110). -/
theorem flatMap_vectorPrimitives (c : Config) (a b : Int) :
    (vectorPrimitives c a b).flatMap (primitiveEvents c) =
      (vecPrimitives c a b).flatMap (primitiveEvents c) ++ overrideEvents c a b := by
  rw [vectorPrimitives, List.flatMap_append, overrideEvents]
  simp only [vecStops_iff]
  split <;> rfl

/-- DRIVE_VEC in range at a ready block (R111). -/
theorem State.Ready.exec_driveVec {s : State} (h : s.Ready) {a b : Int} (ha : a.natAbs ≤ s.cfg.speedMax)
    (hb : b.natAbs ≤ s.cfg.speedMax) :
    exec (.driveVec a b) s = .next (s.finish (zeroReply .ok)
      ((vecPrimitives s.cfg a b).flatMap (primitiveEvents s.cfg) ++ overrideEvents s.cfg a b)) := by
  rw [← flatMap_vectorPrimitives]
  refine h.exec_primitives ?_
  rw [program, if_pos (by simp [componentInRange_iff, ha, hb])]
  rfl

/-- A ready block is ready under any other legal configuration. -/
theorem State.Ready.withConfig {s : State} (h : s.Ready) {c : Config} (hl : configLegal c = true) :
    ({ s with cfg := c } : State).Ready := ⟨hl, h.idle, h.rst, h.sink⟩

/-- The duty a vector leaves for its component `x`: the magnitude, or 0 where the stop override fires (R108, R110). -/
def vectorDuty (c : Config) (a b x : Int) : Byte :=
  if a.natAbs ≤ c.stopThreshold ∧ b.natAbs ≤ c.stopThreshold then 0 else BitVec.ofInt 8 x.natAbs

/-- The sign case driven last and the stop override decide the lines and duties a vector leaves. -/
theorem State.Ready.view_driveVec {s t : State} (h : s.Ready) {a b : Int} (ha : a.natAbs ≤ s.cfg.speedMax)
    (hb : b.natAbs ≤ s.cfg.speedMax) (ht : exec (.driveVec a b) s = .next t) :
    t.view.lineA = some (levelsOf s.cfg (decidingCase s.cfg a b)).a ∧
      t.view.lineB = some (levelsOf s.cfg (decidingCase s.cfg a b)).b ∧
      t.view.dutyA = some (vectorDuty s.cfg a b a) ∧ t.view.dutyB = some (vectorDuty s.cfg a b b) := by
  obtain ⟨ps, hps⟩ := vecPrimitives_ends s.cfg a b
  rw [h.exec_driveVec ha hb, hps, List.flatMap_append, List.flatMap_singleton, primitiveEvents_vecGo _ _ rfl rfl] at ht
  obtain rfl := Host.Outcome.next.inj ht
  simp only [State.finish, List.foldl_append]
  unfold overrideEvents vectorDuty
  split <;> exact ⟨rfl, rfl, rfl, rfl⟩

end Sys2Proof.Machine
end

section
/-! PROOF. The statements about the drive commands (spec/41_motor_drive_dispatcher.md). -/

namespace Sys2Proof.Machine

open Sys2Proof.Claims

/-! ### Raw and hex words -/

/-- Settles O23: the fields of the masked word are the operand's own bits. -/
theorem motorRawDrivesTheWord : Obligations.MotorRawDrivesTheWord := by
  intro v s h
  rw [h.exec_motorRaw, wordReply_eq_wordResponse h.legal, motorEvents_eq_driveEvents h.legal]

/-- Settles O24: a sequence of an accepted length is MOTOR_RAW of its sum. -/
theorem motorHexDrivesTheParsedWord : Obligations.MotorHexDrivesTheParsedWord := by
  intro c s h
  refine ⟨fun hrej => h.exec_no_operations (hexProgram_of_rejected hrej _), fun hacc => ?_⟩
  have hraw : exec (.motorHex c) s = exec (.motorRaw (hexOperand c)) s := exec_congr (hexProgram_of_accepted hacc _)
  rw [hraw, motorRawDrivesTheWord _ s h]

/-! ### Keywords -/

/-- Settles O27: each clause is a branch of R105's rule. -/
theorem keywordDrivesItsPrimitive : Obligations.KeywordDrivesItsPrimitive := by
  classical
  intro k e speeds s h he
  have hplan := keywordPlan_eq_ite he speeds
  refine ⟨fun hin => ?_, fun hout => ⟨fun hreject => ?_, fun hsaturate => ?_⟩⟩
  · exact h.exec_driveKw (hplan.trans (if_pos hin))
  · exact h.exec_driveKw (hplan.trans ((if_neg hout).trans (if_pos hreject)))
  · exact h.exec_driveKw (hplan.trans ((if_neg hout).trans (if_neg (by simp [hsaturate]))))

/-- A keyword of the default table with explicit speeds, where they stay in range after its row's offsets. -/
theorem State.Ready.exec_standardKeyword {s : State} (h : s.Ready) (ht : s.cfg.kwTable = KwTable.standard)
    (hd : s.cfg.dirLevels = DirLevels.standard) (k : Keyword) {e : KwEntry} (he : kwEntry KwTable.standard k = some e)
    {sA sB : Byte} {x y : Int} (hx : sA.toNat - offsetValue s.cfg e.offA = x)
    (hy : sB.toNat - offsetValue s.cfg e.offB = y) (hrx : DutyRange x) (hry : DutyRange y) :
    exec (.driveKw (.known k) (some ⟨sA, sB⟩)) s =
      .next (s.finish (zeroReply .ok) (goEvents (levelsOf Config.document e.prim) x y)) := by
  subst hx hy
  rw [← levelsOf_standard hd]
  exact (keywordDrivesItsPrimitive k e (some ⟨sA, sB⟩) s h (by rw [ht, he])).1 ⟨hrx, hry⟩

/-- Settles O28: the row and the levels of each keyword are read off the default tables. -/
theorem defaultKeywordTable : Obligations.DefaultKeywordTable := by
  intro sA sB s h ht hd
  have hA := dutyRange_byte sA
  have hB := dutyRange_byte sB
  have hA0 : sA.toNat - offsetValue s.cfg .zero = sA.toNat := Int.sub_zero _
  have hB0 : sB.toNat - offsetValue s.cfg .zero = sB.toNat := Int.sub_zero _
  refine ⟨?_, ?_, fun hA1 hB1 => ⟨?_, ?_⟩, fun hA2 => ⟨?_, ?_⟩, fun hB2 => ⟨?_, ?_⟩⟩
  · rw [h.exec_standardKeyword ht hd .forward rfl hA0 hB0 hA hB, goEvents_bytes]
    rfl
  · rw [h.exec_standardKeyword ht hd .backward rfl hA0 hB0 hA hB, goEvents_bytes]
    rfl
  · exact h.exec_standardKeyword ht hd .turnLeft rfl rfl rfl hA1 hB1
  · exact h.exec_standardKeyword ht hd .turnRight rfl rfl rfl hA1 hB1
  · exact h.exec_standardKeyword ht hd .diagonalForwardRight rfl rfl hB0 hA2 hB
  · exact h.exec_standardKeyword ht hd .diagonalBackwardRight rfl rfl hB0 hA2 hB
  · exact h.exec_standardKeyword ht hd .diagonalForwardLeft rfl hA0 rfl hA hB2
  · exact h.exec_standardKeyword ht hd .diagonalBackwardLeft rfl hA0 rfl hA hB2

/-! ### Vectors -/

/-- Settles O29: a component outside the domain leaves no operations. -/
theorem vectorOutOfRangeIsRejected : Obligations.VectorOutOfRangeIsRejected := by
  intro a b s h hout
  refine h.exec_no_operations ?_
  rw [program, if_neg (by simp only [Bool.and_eq_true, componentInRange_iff]; omega)]
  rfl

/-- Settles O30: the direction primitives are those of the configuration's `VEC_BRANCHES`. -/
theorem vectorDrivesItsCases : Obligations.VectorDrivesItsCases := by
  intro a b s h ha hb
  obtain ⟨hchain, hindep⟩ := flatMap_vecPrimitives s.cfg a b
  rw [h.exec_driveVec ha hb]
  exact ⟨fun hmode => by rw [hchain hmode], fun hmode => by rw [hindep hmode]⟩

/-- Settles O31: every case drives the same magnitudes, and only the last case driven decides the lines. -/
theorem vectorBranchesAgreeOnDuties : Obligations.VectorBranchesAgreeOnDuties := by
  intro a b s t u h ha hb ht hu
  have hchain := h.withConfig (c := { s.cfg with vecBranches := .chain }) h.legal
  have hindep := h.withConfig (c := { s.cfg with vecBranches := .independent }) h.legal
  obtain ⟨htlineA, htlineB, htdutyA, htdutyB⟩ := hchain.view_driveVec ha hb ht
  obtain ⟨hulineA, hulineB, hudutyA, hudutyB⟩ := hindep.view_driveVec ha hb hu
  refine ⟨htdutyA.trans hudutyA.symm, htdutyB.trans hudutyB.symm, ⟨_, ?_, htlineA, htlineB⟩, _, ?_, hulineA, hulineB⟩
  · simp only [decidingCase, firstCase]
    split_ifs <;> rfl
  · simp only [decidingCase, lastCase]
    split_ifs <;> rfl

/-- Settles O32: some case is always driven, and the stop override comes after it. -/
theorem slowVectorEndsStopped : Obligations.SlowVectorEndsStopped := by
  intro a b s h ha hb hsa hsb
  have hstop : overrideEvents s.cfg a b = stopEvents := if_pos ⟨hsa, hsb⟩
  obtain ⟨ps, hps⟩ := vecPrimitives_ends s.cfg a b
  have hexec := h.exec_driveVec ha hb
  obtain ⟨-, -, hdutyA, hdutyB⟩ := h.view_driveVec ha hb hexec
  have hzero (x : Int) : vectorDuty s.cfg a b x = 0 := if_pos ⟨hsa, hsb⟩
  rw [hzero] at hdutyA hdutyB
  obtain ⟨hchain, hindep⟩ := flatMap_vecPrimitives s.cfg a b
  refine ⟨_, _, hexec, hchain, hindep, ?_, ?_, hdutyA, hdutyB⟩
  · rw [hps, List.flatMap_append, List.length_append]
    exact Nat.le_add_left 4 _
  · rw [hstop, List.append_assoc]
    rfl

end Sys2Proof.Machine
end

section
/-! SUPPORT. The arithmetic of a servo lane (spec/42_servo_linear_interpolator.md, R121 to R127): the clamp, the delta and
the pulses by the formulas of the spec, what truncation does to the way a lane goes, and the pulses the port carries. -/

namespace Sys2Proof.Machine

open Sys2Proof.Claims

/-! ### The model's functions by the spec's formulas -/

/-- What R7 says of the parameters of a servo lane. -/
theorem configLegal_lane {c : Config} (hl : configLegal c = true) :
    0 < c.frames ∧ c.posMin ≤ c.posMax ∧ c.posMax ≤ 180 ∧ c.pulseBase + 255 * c.pulseScale ≤ 65535 := by
  simp only [configLegal, decide_eq_true_eq] at hl
  obtain ⟨-, hframes, hbounds, hmax, -, hport⟩ := hl
  exact ⟨hframes, hbounds, hmax, hport⟩

theorem clampTarget_eq_target {c : Config} (hl : configLegal c = true) (t : Byte) : clampTarget c t = target c t :=
  have ⟨_, hbounds, _⟩ := configLegal_lane hl
  clamp_eq_max_min (by omega) _

theorem stepPosition_eq_nudged {c : Config} (hl : configLegal c = true) (up : Bool) (cur : Byte) :
    stepPosition c up cur = nudged c up cur :=
  have ⟨_, hbounds, _⟩ := configLegal_lane hl
  clamp_eq_max_min (by omega) _

theorem frameDelta_eq_delta {c : Config} (hl : configLegal c = true) (t cur : Byte) :
    frameDelta c (clampTarget c t) cur = delta c t cur := by
  rw [clampTarget_eq_target hl]
  rfl

theorem rampPulse_eq_framePulse {c : Config} (hl : configLegal c = true) (t cur : Byte) (i : Nat) :
    rampPulse c (laneEntered c t cur) i = framePulse c t cur i := by
  simp only [rampPulse, laneEntered, frameDelta_eq_delta hl, framePulse]

/-- A frame's pulse is that of the reading and `i` deltas (R127). -/
theorem framePulse_eq_add (c : Config) (t cur : Byte) (i : Nat) :
    framePulse c t cur i = positionPulse c cur.toNat + i * delta c t cur := rfl

/-- The target's pulse is that of the reading and the distance (R121, R130). -/
theorem positionPulse_target (c : Config) (t cur : Byte) :
    positionPulse c (target c t) = positionPulse c cur.toNat + distance c t cur := by
  simp only [positionPulse, distance]
  ring

/-! ### The way from the reading to the target -/

theorem distance_nonneg {c : Config} {t cur : Byte} (h : (cur.toNat : Int) ≤ target c t) : 0 ≤ distance c t cur :=
  Int.mul_nonneg (Int.natCast_nonneg _) (Int.sub_nonneg_of_le h)

theorem distance_nonpos {c : Config} {t cur : Byte} (h : target c t ≤ (cur.toNat : Int)) : distance c t cur ≤ 0 :=
  Int.mul_nonpos_of_nonneg_of_nonpos (Int.natCast_nonneg _) (Int.sub_nonpos_of_le h)

theorem delta_nonneg {c : Config} {t cur : Byte} (h : (cur.toNat : Int) ≤ target c t) : 0 ≤ delta c t cur :=
  Int.tdiv_nonneg (distance_nonneg h) (Int.natCast_nonneg _)

theorem delta_nonpos {c : Config} {t cur : Byte} (h : target c t ≤ (cur.toNat : Int)) : delta c t cur ≤ 0 := by
  have hneg := Int.tdiv_nonneg (Int.neg_nonneg_of_nonpos (distance_nonpos h)) (Int.natCast_nonneg c.frames)
  rw [Int.neg_tdiv] at hneg
  exact Int.nonpos_of_neg_nonneg hneg

/-- The delta is 0 exactly where the distance is less than one microsecond a frame (R125). -/
theorem delta_ne_zero_iff {c : Config} (hf : 0 < c.frames) (t cur : Byte) :
    delta c t cur ≠ 0 ↔ (c.frames : Int) ≤ |distance c t cur| := by
  have hquotient : (delta c t cur).natAbs = (distance c t cur).natAbs / c.frames := Int.natAbs_tdiv _ _
  rw [← Int.natAbs_ne_zero, hquotient, Nat.div_ne_zero_iff, Int.abs_eq_natAbs]
  omega

/-- Toward a larger value, `i` of `n` truncated steps come no further than the whole way. -/
theorem mul_tdiv_mem_of_nonneg {d : Int} {i n : Nat} (hd : 0 ≤ d) (hi : i ≤ n) :
    0 ≤ i * d.tdiv n ∧ i * d.tdiv n ≤ d := by
  have hstep : 0 ≤ d.tdiv n := Int.tdiv_nonneg hd (Int.natCast_nonneg n)
  refine ⟨Int.mul_nonneg (Int.natCast_nonneg i) hstep, ?_⟩
  calc (i : Int) * d.tdiv n ≤ n * d.tdiv n := Int.mul_le_mul_of_nonneg_right (Int.ofNat_le.mpr hi) hstep
    _ ≤ d := Int.mul_tdiv_self_le hd

/-- Toward a smaller value as well: truncation is the same on both sides of 0. -/
theorem mul_tdiv_mem_of_nonpos {d : Int} {i n : Nat} (hd : d ≤ 0) (hi : i ≤ n) :
    d ≤ i * d.tdiv n ∧ i * d.tdiv n ≤ 0 := by
  have hneg := mul_tdiv_mem_of_nonneg (Int.neg_nonneg_of_nonpos hd) hi
  rw [Int.neg_tdiv, Int.mul_neg] at hneg
  omega

/-! ### The port -/

theorem positionPulse_mono (c : Config) {p q : Int} (h : p ≤ q) : positionPulse c p ≤ positionPulse c q :=
  Int.add_le_add_left (Int.mul_le_mul_of_nonneg_left h (Int.natCast_nonneg _)) _

/-- Up to frame FRAMES a lane's pulses lie between those of the reading and of the target (R133). -/
theorem framePulse_mem {c : Config} (t cur : Byte) {i : Nat} (hi : i ≤ c.frames) :
    positionPulse c (min (cur.toNat : Int) (target c t)) ≤ framePulse c t cur i ∧
      framePulse c t cur i ≤ positionPulse c (max (cur.toNat : Int) (target c t)) := by
  have htarget := positionPulse_target c t cur
  rw [framePulse_eq_add, delta]
  obtain hle | hle := le_total (cur.toNat : Int) (target c t)
  · have hmem := mul_tdiv_mem_of_nonneg (distance_nonneg hle) hi
    rw [min_eq_left hle, max_eq_right hle]
    constructor <;> linarith
  · have hmem := mul_tdiv_mem_of_nonpos (distance_nonpos hle) hi
    rw [min_eq_right hle, max_eq_left hle]
    constructor <;> linarith

/-- The pulse of a position a byte can hold is a number of 16 bits (R7). -/
theorem positionPulse_mem {c : Config} (hl : configLegal c = true) {p : Int} (hp : 0 ≤ p ∧ p ≤ 255) :
    0 ≤ positionPulse c p ∧ positionPulse c p ≤ 65535 := by
  obtain ⟨-, -, -, hport⟩ := configLegal_lane hl
  have hlow := positionPulse_mono c hp.1
  have hhigh := positionPulse_mono c hp.2
  simp only [positionPulse] at hlow hhigh ⊢
  omega

theorem pulseBits_toNat {us : Int} (h : 0 ≤ us ∧ us ≤ 65535) : ((pulseBits us).toNat : Int) = us := by
  rw [pulseBits, BitVec.toNat_ofInt]
  omega

theorem target_mem {c : Config} (hl : configLegal c = true) (t : Byte) :
    (c.posMin : Int) ≤ target c t ∧ target c t ≤ c.posMax := by
  obtain ⟨-, hbounds, -⟩ := configLegal_lane hl
  unfold target
  omega

theorem nudged_mem {c : Config} (hl : configLegal c = true) (up : Bool) (cur : Byte) :
    (c.posMin : Int) ≤ nudged c up cur ∧ nudged c up cur ≤ c.posMax := by
  obtain ⟨-, hbounds, -⟩ := configLegal_lane hl
  unfold nudged
  omega

end Sys2Proof.Machine
end

section
/-! PROOF. The statements about the arithmetic of the servo interpolator (spec/42_servo_linear_interpolator.md, R130 to
R133). -/

namespace Sys2Proof.Machine

open Sys2Proof.Claims

/-- Settles O42: the clamp is a maximum and a minimum. -/
theorem clampLaw : Obligations.ClampLaw := by
  intro c t hl
  obtain ⟨hmin, hmax⟩ := target_mem hl t
  rw [clampTarget_eq_target hl]
  refine ⟨hmin, hmax, fun hlo hhi => ?_⟩
  rw [target, min_eq_left hhi, max_eq_right hlo]

/-- Settles O39: what the last frame lacks is the remainder of the distance by FRAMES. -/
theorem finalFrameStopsShort : Obligations.FinalFrameStopsShort := by
  intro c t cur hl
  obtain ⟨hframes, -⟩ := configLegal_lane hl
  refine ⟨_, rfl, ?_⟩
  rw [rampPulse_eq_framePulse hl, framePulse_eq_add, positionPulse_target c t cur, frameDelta_eq_delta hl]
  refine ⟨by ring, ?_⟩
  rw [delta, ← Int.tmod_def]
  constructor
  · have hlt : (distance c t cur).natAbs % (c.frames : Int).natAbs < c.frames := Nat.mod_lt _ hframes
    rw [← Int.natAbs_tmod] at hlt
    rw [Int.abs_eq_natAbs]
    omega
  · rw [← Int.sign_eq_zero_iff_zero, Int.sign_tmod]
    split
    · exact .inl rfl
    · exact .inr rfl

/-- Settles O40: two frames differ by a whole number of deltas, and the delta has the sign of the distance. -/
theorem rampIsMonotone : Obligations.RampIsMonotone := by
  intro c t cur i j hl hij
  obtain ⟨hframes, -⟩ := configLegal_lane hl
  obtain ⟨m, rfl⟩ := Nat.exists_eq_add_of_lt hij
  have hpulses : framePulse c t cur (i + m + 1) = framePulse c t cur i + ((m + 1 : Nat) : Int) * delta c t cur := by
    rw [framePulse_eq_add, framePulse_eq_add]
    push_cast
    ring
  simp only [rampPulse_eq_framePulse hl, frameDelta_eq_delta hl, hpulses]
  refine ⟨fun hup => ?_, fun hdown => ?_, ?_⟩
  · have hdelta := delta_nonneg hup.le
    exact ⟨hdelta, le_add_of_nonneg_right (Int.mul_nonneg (Int.natCast_nonneg _) hdelta)⟩
  · have hdelta := delta_nonpos hdown.le
    exact add_le_of_nonpos_right (Int.mul_nonpos_of_nonneg_of_nonpos (Int.natCast_nonneg _) hdelta)
  · rw [← delta_ne_zero_iff hframes, left_ne_add, mul_ne_zero_iff]
    omega

/-- Settles O41: a lane stays between the reading and the target, and no position is above 255. -/
theorem pulsesFitThePort : Obligations.PulsesFitThePort := by
  intro c t cur i p up hl
  obtain ⟨-, -, hmax, -⟩ := configLegal_lane hl
  have hcur := cur.isLt
  have htarget := target_mem hl t
  have hnudged := nudged_mem hl up cur
  refine ⟨fun hi => ?_, fun hp => ?_, ?_⟩
  · rw [rampPulse_eq_framePulse hl]
    obtain ⟨hlow, hhigh⟩ := framePulse_mem t cur hi
    have hlow0 := positionPulse_mem hl (p := min (cur.toNat : Int) (target c t)) (by omega)
    have hhigh0 := positionPulse_mem hl (p := max (cur.toNat : Int) (target c t)) (by omega)
    exact ⟨hlow, hhigh, pulseBits_toNat ⟨hlow0.1.trans hlow, hhigh.trans hhigh0.2⟩⟩
  · exact pulseBits_toNat (positionPulse_mem hl (by omega))
  · rw [stepPosition_eq_nudged hl]
    exact pulseBits_toNat (positionPulse_mem hl (by omega))

end Sys2Proof.Machine
end

section
/-! SUPPORT. Servo commands at a ready block: the entry reads and the frames of a servo word (R122 to R127), and the
positions of a sweep (R143). -/

namespace Sys2Proof.Machine

open Sys2Proof.Claims

/-! ### Events and angles -/

@[simp] theorem State.nextAngle_record (s : State) (e : Event) : (s.record e).nextAngle = s.nextAngle := rfl

@[simp] theorem State.takeAngle_record (s : State) (e : Event) : (s.record e).takeAngle = s.takeAngle.record e := by
  unfold State.takeAngle
  cases h : s.angles <;> simp [State.record, h]

/-- An event before a command's end is the first of its events. -/
@[simp] theorem State.finish_record (s : State) (e : Event) (r : Response) (es : List Event) :
    (s.record e).finish r es = s.finish r (e :: es) := by
  simp [State.finish, State.record]

/-! ### The bits of a servo word -/

theorem wordAct1_wordOf {c : Config} (hl : configLegal c = true) (v : Operand) : wordAct1 (wordOf c v) = v.getLsbD 16 :=
  wordOf_activeBit hl v .one

theorem wordAct2_wordOf {c : Config} (hl : configLegal c = true) (v : Operand) : wordAct2 (wordOf c v) = v.getLsbD 17 :=
  wordOf_activeBit hl v .two

theorem wordResponse_word (st : Status) (w : CmdWord) : (wordResponse st w).word = w := rfl

theorem targetByte_one_wordOf {c : Config} (hl : configLegal c = true) (v : Operand) :
    targetByte (wordOf c v) .one = v.extractLsb' 0 8 :=
  congrArg Response.low (wordReply_eq_wordResponse hl .ok v).symm

theorem targetByte_two_wordOf {c : Config} (hl : configLegal c = true) (v : Operand) :
    targetByte (wordOf c v) .two = v.extractLsb' 8 8 :=
  congrArg Response.high (wordReply_eq_wordResponse hl .ok v).symm

/-! ### Entry reads -/

/-- The state after a channel's entry read, which only an active channel has (R123). -/
def State.entered (s : State) (active : Bool) (ch : Servo) : State :=
  if active then s.takeAngle.record (.read ch s.nextAngle) else s

/-- The transient state after a channel's entry read of `a` (R123, R125, R126). -/
def Transient.entered (t : Transient) (c : Config) (active : Bool) (ch : Servo) (a : Byte) : Transient :=
  if active then t.setLane ch (laneEntered c (targetByte t.rsp.word ch) a) else t

@[simp] theorem State.entered_sinkGrant (s : State) (active : Bool) (ch : Servo) :
    (s.entered active ch).sinkGrant = s.sinkGrant := by
  cases active <;> simp [State.entered]

@[simp] theorem State.entered_cfg (s : State) (active : Bool) (ch : Servo) : (s.entered active ch).cfg = s.cfg := by
  cases active <;> simp [State.entered]

@[simp] theorem Transient.entered_rsp (t : Transient) (c : Config) (active : Bool) (ch : Servo) (a : Byte) :
    (t.entered c active ch a).rsp = t.rsp := by
  cases active <;> simp [Transient.entered]

theorem Transient.lane_entered (t : Transient) (c : Config) {active : Bool} (ch : Servo) (a : Byte)
    (h : active = true) : (t.entered c active ch a).lane ch = laneEntered c (targetByte t.rsp.word ch) a := by
  rw [Transient.entered, if_pos h, Transient.lane_setLane]

theorem Transient.lane_entered_ne (t : Transient) (c : Config) (active : Bool) {ch ch' : Servo} (a : Byte)
    (h : ch' ≠ ch) : (t.entered c active ch a).lane ch' = t.lane ch' := by
  cases active with
  | false => rfl
  | true => exact Transient.lane_setLane_ne t _ h

/-- An entry read of a channel that is active is carried out; one of a channel that is not does not stand there. -/
theorem State.perform_whenSet_enter {s : State} (hg : s.sinkGrant = none) (t : Transient) (active : Bool) (ch : Servo)
    (rest : List Op) :
    s.perform (whenSet active (.enter ch) ++ rest) t =
      (s.entered active ch).perform rest (t.entered s.cfg active ch s.nextAngle) := by
  cases active with
  | false => rfl
  | true => exact State.perform_enter hg t ch rest

/-! ### Frames -/

theorem frameOps_reads {act1 act2 : Bool} {i : Nat} {op : Op} (h : op ∈ frameOps act1 act2 i) : op.reads = false := by
  simp only [frameOps, whenSet, List.mem_append, List.mem_ite_nil_right, List.mem_singleton] at h
  obtain (⟨-, rfl⟩ | ⟨-, rfl⟩) | rfl := h <;> rfl

/-- The write of a frame in a lane that its entry read has written is the spec's pulse (R127). -/
theorem event_ramp {c : Config} (hl : configLegal c = true) {t : Transient} {ch : Servo} {b a : Byte}
    (hlane : t.lane ch = laneEntered c b a) (i : Nat) :
    ((Op.ramp ch i).request c t).event 0 = .pulse ch (BitVec.ofInt 16 (framePulse c b a i)) := by
  rw [← rampPulse_eq_framePulse hl, ← hlane]
  rfl

/-- The events of a frame whose active lanes have been entered (R127). -/
theorem map_event_frameOps {c : Config} (hl : configLegal c = true) {t : Transient} {act1 act2 : Bool}
    {t1 t2 cur1 cur2 : Byte} (h1 : act1 = true → t.lane .one = laneEntered c t1 cur1)
    (h2 : act2 = true → t.lane .two = laneEntered c t2 cur2) (i : Nat) :
    (frameOps act1 act2 i).map (fun op => (op.request c t).event 0) =
      frameEvents c act1 act2 t1 t2 cur1 cur2 i := by
  have hwrite (active : Bool) (ch : Servo) (b a : Byte) (h : active = true → t.lane ch = laneEntered c b a) :
      (whenSet active (.ramp ch i)).map (fun op => (op.request c t).event 0) =
        if active then [.pulse ch (BitVec.ofInt 16 (framePulse c b a i))] else [] := by
    cases active with
    | false => rfl
    | true => exact congrArg (fun e => [e]) (event_ramp hl (h rfl) i)
  rw [frameOps, List.map_append, List.map_append, hwrite act1 .one t1 cur1 h1, hwrite act2 .two t2 cur2 h2]
  rfl

/-- The operations of a servo word, carried out to their end with the spec's events (R123, R127). -/
theorem State.perform_servoOps {s : State} (hl : configLegal s.cfg = true) (hg : s.sinkGrant = none) (r : Response) :
    s.perform (servoOps s.cfg r.word) (.start r) =
      ((s.entered (wordAct1 r.word) .one).entered (wordAct2 r.word) .two).finish r
        ((List.range (s.cfg.frames + 1)).flatMap
          (frameEvents s.cfg (wordAct1 r.word) (wordAct2 r.word) (targetByte r.word .one) (targetByte r.word .two)
            s.nextAngle (s.entered (wordAct1 r.word) .one).nextAngle)) := by
  have hreads : ∀ op ∈ (List.range (s.cfg.frames + 1)).flatMap (frameOps (wordAct1 r.word) (wordAct2 r.word)),
      op.reads = false := fun op hop => by
    obtain ⟨i, -, hi⟩ := List.mem_flatMap.mp hop
    exact frameOps_reads hi
  rw [servoOps, List.append_assoc, State.perform_whenSet_enter hg, State.perform_whenSet_enter (by simp [hg]),
    State.perform_reads_nothing (by simp [hg]) _ _ hreads]
  simp only [State.entered_cfg, Transient.entered_rsp, List.map_flatMap]
  congr 1
  refine List.flatMap_congr fun i _ => map_event_frameOps hl (fun h1 => ?_) (fun h2 => ?_) i
  · rw [Transient.lane_entered_ne _ _ _ _ (by decide), Transient.lane_entered _ _ _ _ h1]
    rfl
  · rw [Transient.lane_entered _ _ _ _ h2, Transient.entered_rsp]
    rfl

/-! ### Sweeps -/

/-- A sweep issues the pulse of each of R143's positions and a delay: between the bounds no subtraction of natural numbers
is cut off. -/
theorem map_event_sweepOps {c : Config} (hl : configLegal c = true) (t : Transient) (ch : Servo) (up : Bool) :
    (sweepOps c ch up).map (fun op => (op.request c t).event 0) = sweepEvents c ch up := by
  obtain ⟨-, hbounds, -⟩ := configLegal_lane hl
  rw [sweepOps, sweepPositions, List.flatMap_map, List.map_flatMap]
  refine List.flatMap_congr fun k hk => ?_
  have hk := List.mem_range.mp hk
  have hposition : ((if up then c.posMin + k else c.posMax - k : Nat) : Int) =
      if up then (c.posMin : Int) + k else (c.posMax : Int) - k := by
    split <;> omega
  rw [← hposition]
  rfl

end Sys2Proof.Machine
end

section
/-! PROOF. The statements about the servo commands (spec/42_servo_linear_interpolator.md). -/

namespace Sys2Proof.Machine

open Sys2Proof.Claims

/-- Settles O34: without an active channel there is no operation; otherwise the entry reads, which only active channels
have, come before frames that read nothing. -/
theorem servoRawRampsTheActiveChannels : Obligations.ServoRawRampsTheActiveChannels := by
  intro v s h
  have hact1 := wordAct1_wordOf h.legal v
  have hact2 := wordAct2_wordOf h.legal v
  by_cases hnone : v.getLsbD 16 = false ∧ v.getLsbD 17 = false
  · rw [servoDone, if_pos hnone, wordReply_eq_wordResponse h.legal]
    refine h.exec_no_operations ?_
    rw [program, servoProgram, hact1, hact2, hnone.1, hnone.2]
    rfl
  · have hactive : (v.getLsbD 16 || v.getLsbD 17) = true :=
      eq_true_of_ne_false fun hoff => hnone (Bool.or_eq_false_iff.mp hoff)
    have hprogram : program s.cfg (.servoRaw v) =
        (wordResponse .ok (wordOf s.cfg v), servoOps s.cfg (wordOf s.cfg v)) := by
      rw [program, servoProgram, hact1, hact2, if_pos hactive]
    have hperform := State.perform_servoOps h.legal h.sink (wordResponse .ok (wordOf s.cfg v))
    rw [wordResponse_word, hact1, hact2, targetByte_one_wordOf h.legal, targetByte_two_wordOf h.legal] at hperform
    rw [exec_ready h, hprogram, hperform, servoDone, if_neg hnone, wordReply_eq_wordResponse h.legal]
    cases v.getLsbD 16 <;> cases v.getLsbD 17 <;> simp [State.entered]

/-- Settles O35: a sequence of an accepted length is SERVO_RAW of its sum. -/
theorem servoHexRampsTheParsedWord : Obligations.ServoHexRampsTheParsedWord := by
  intro c s h
  refine ⟨fun hrej => h.exec_no_operations (hexProgram_of_rejected hrej _), fun hacc => ?_⟩
  have hraw : exec (.servoHex c) s = exec (.servoRaw (hexOperand c)) s := exec_congr (hexProgram_of_accepted hacc _)
  rw [hraw, servoRawRampsTheActiveChannels _ s h]

/-- Settles O36: the read gives the lane its reading, and the two operations after it read nothing. -/
theorem servoStepNudgesFromTheReading : Obligations.ServoStepNudgesFromTheReading := by
  intro up s h
  refine ⟨fun code => h.exec_no_operations rfl, fun ch => ?_⟩
  have hprogram : program s.cfg (.servoStep (.channel ch) up) =
      (plainResponse .ok, [.sense ch, .nudge ch up, .stepSleep]) := rfl
  have hpulse : posPulse s.cfg (stepPosition s.cfg up s.nextAngle) = positionPulse s.cfg (nudged s.cfg up s.nextAngle) :=
    congrArg (positionPulse s.cfg) (stepPosition_eq_nudged h.legal up s.nextAngle)
  rw [exec_ready h, hprogram, State.perform_sense h.sink,
    State.perform_reads_nothing (by simp [h.sink]) _ _ (by simp [Op.reads]), State.finish_record, ← hpulse]
  simp only [List.map_cons, List.map_nil, Op.request, Transient.lane_setLane, Transient.setLane_rsp, State.record_cfg,
    State.takeAngle_cfg]
  rfl

/-- Settles O37: the sweep reads nothing, and its positions as integers are the spec's. -/
theorem servoSweepWritesEveryPosition : Obligations.ServoSweepWritesEveryPosition := by
  intro up s h
  refine ⟨fun code => h.exec_no_operations rfl, fun ch => ?_⟩
  have hreads (op : Op) (hop : op ∈ sweepOps s.cfg ch up) : op.reads = false := by
    obtain ⟨p, -, -, rfl | rfl⟩ := mem_sweepOps h.legal hop <;> rfl
  rw [h.exec_reads_nothing (i := .servoSweep (.channel ch) up) hreads,
    ← map_event_sweepOps h.legal (.start (plainResponse .ok))]
  rfl

end Sys2Proof.Machine
end

section
/-! PROOF. The statements about outcomes (spec/60_exceptions.md): the response of a command, what a status other than OK
leaves unchanged, and what stops. -/

namespace Sys2Proof.Machine

open Sys2Proof.Claims

/-! ### The response of a command -/

/-- Settles O46: a command is accepted with the tables' response, and performing its operations offers or holds it. -/
theorem responseIsTheTablesResponse : Obligations.ResponseIsTheTablesResponse := by
  intro i s t hl hr h
  rw [exec_of_cmdReady hl hr, program_response hl] at h
  obtain rfl := Host.Outcome.next.inj h
  obtain hresp | ⟨tr, op, rest, hbusy, hrsp, -⟩ := State.perform_seq (program s.cfg i).2 (.start (responseOf s.cfg i)) s
  · exact .inl hresp
  · exact .inr ⟨tr, op :: rest, hbusy, hrsp⟩

/-- Only a command of status OK has operations (R152). -/
theorem program_no_operations_of_not_ok {c : Config} (hl : configLegal c = true) {i : Instr} (h : statusOf c i ≠ .ok) :
    (program c i).2 = [] := by
  by_contra hops
  have hok := (program_sound hl i).ok hops
  rw [program_response hl] at hok
  exact h hok

/-- Settles O47: such a command has no operations, so its response is offered at once. -/
theorem notOkIssuesNoEvent : Obligations.NotOkIssuesNoEvent := by
  intro i s t hl hr hst h
  have hops := program_no_operations_of_not_ok hl hst
  obtain ⟨htrace, hview, -⟩ := exec_no_operations h hops
  rw [exec_of_cmdReady hl hr, program_response hl, hops] at h
  obtain rfl := Host.Outcome.next.inj h
  exact ⟨htrace, hview, rfl⟩

/-- Settles O44: the reserved operations have no operations on the sink. -/
theorem reservedOperationsAreIgnored : Obligations.ReservedOperationsAreIgnored := fun _ h =>
  ⟨h.exec_no_operations rfl, h.exec_no_operations rfl, h.exec_no_operations rfl, h.exec_no_operations rfl,
    h.exec_no_operations rfl, h.exec_no_operations rfl⟩

/-- Settles O45, status by status. -/
theorem statusCodes : Obligations.StatusCodes := by
  refine ⟨rfl, rfl, rfl, rfl, rfl, rfl, rfl, fun st => ?_⟩
  cases st <;> decide

/-! ### What stops -/

theorem exec_illegal {s : State} (hl : configLegal s.cfg = false) (i : Instr) :
    exec i s = .fault .illegalConfiguration := by
  rw [exec_eq_accept, State.accept_illegal hl]

/-- Under a legal configuration a command is carried out or waits. -/
theorem exec_answers {s : State} (hl : configLegal s.cfg = true) (i : Instr) : ∃ t, exec i s = .next t := by
  cases hr : s.cmdReady with
  | true => exact ⟨_, exec_of_cmdReady hl hr i⟩
  | false => exact ⟨s, commandWaitsWhileNotReady i s hl hr⟩

theorem step_illegal {s : State} (hl : configLegal s.cfg = false) : step s = .fault .illegalConfiguration := by
  simp [step, hl]

theorem step_reset {s : State} (hl : configLegal s.cfg = true) (hr : s.rst = true) : step s = .next s.clearByReset := by
  simp [step, hl, hr]

/-- Under a legal configuration a step makes one of its moves: reset, or what the phase says. -/
theorem step_moves {s : State} (hl : configLegal s.cfg = true) : ∃ t, step s = .next t := by
  cases hr : s.rst with
  | true => exact ⟨_, step_reset hl hr⟩
  | false =>
    cases hq : s.seq with
    | idle =>
      cases ho : s.offers with
      | nil => exact ⟨s, step_idle_waits hl hr hq ho⟩
      | cons c rest => exact ⟨_, (step_accepts hl hr hq ho).trans (exec_sample hl hr hq c rest)⟩
    | busy tr todo issued => exact ⟨_, step_busy hl hr hq⟩
    | resp r =>
      cases hy : s.rspReady with
      | true => exact ⟨_, step_answers hl hr hq hy⟩
      | false => exact ⟨s, step_holds hl hr hq hy⟩

/-- Settles O48: under a legal configuration commands and steps answer, and the check of the configuration is the first
thing either does. -/
theorem onlyAnIllegalConfigurationStops : Obligations.OnlyAnIllegalConfigurationStops :=
  ⟨fun i _ => ⟨fun hl => exec_answers hl i, fun hl => exec_illegal hl i⟩, fun _ => ⟨step_moves, step_illegal⟩⟩

end Sys2Proof.Machine
end

section
/-! PROOF. The statements about reset and the machine as a whole (spec/70_reset_and_hazards.md): a reset at any moment, and
the invariant from power-up on. -/

namespace Sys2Proof.Machine

/-! ### The ports in reset -/

theorem State.cmdReady_of_rst {s : State} (hr : s.rst = true) : s.cmdReady = false := by
  simp [State.cmdReady, hr]

theorem State.rspValid_of_rst {s : State} (hr : s.rst = true) : s.rspValid = false := by
  cases hq : s.seq <;> simp [State.rspValid, State.rspRecord, hq, hr]

/-- The outstanding request is withdrawn from the port while `rst = 1` (R170). -/
theorem State.snkRequest_of_rst {s : State} (hr : s.rst = true) : s.snkRequest = none := by
  unfold State.snkRequest
  split
  · simp [hr]
  all_goals rfl

theorem State.snkValid_of_rst {s : State} (hr : s.rst = true) : s.snkValid = false := by
  simp [State.snkValid, State.snkRequest_of_rst hr]

/-! ### Raising and dropping `rst` -/

theorem State.settleOutstanding_of_none {s : State} (h : s.outstanding = none) : s.settleOutstanding = s := by
  simp [State.settleOutstanding, h]

theorem State.driveReset_true_seq (s : State) : (s.driveReset true).seq = .idle := s.clearByReset_seq

theorem State.driveReset_true_sampled (s : State) : (s.driveReset true).sampled = none := s.clearByReset_sampled

/-- Where no request is outstanding, a reset writes nothing. -/
theorem State.driveReset_true_record {s : State} (h : s.outstanding = none) :
    (s.driveReset true).trace = s.trace ∧ (s.driveReset true).view = s.view := by
  simp [State.settleOutstanding_of_none h]

/-- A block in reset stays as raising `rst` left it. -/
theorem step_driveReset_true {s : State} (hl : configLegal s.cfg = true) :
    step (s.driveReset true) = .next (s.driveReset true) := by
  rw [step_reset (by simpa using hl) (s.driveReset_rst true),
    State.clearByReset_of_idle s.driveReset_true_seq s.driveReset_true_sampled]

theorem State.cmdReady_driveReset_false {s : State} (hq : s.seq = .idle) : (s.driveReset false).cmdReady = true :=
  (s.driveReset false).cmdReady_iff.mpr ⟨hq, rfl⟩

/-- Settles O16: raising `rst` clears the block as a step in reset does, and the ports show nothing while it is 1. -/
theorem resetAbandonsTheCommand : Obligations.ResetAbandonsTheCommand := by
  intro s hl
  have hr : (s.driveReset true).rst = true := s.driveReset_rst true
  exact ⟨⟨s.driveReset_true_seq, s.driveReset_true_sampled, State.cmdReady_of_rst hr, State.rspValid_of_rst hr,
      State.snkValid_of_rst hr, s.driveReset_responses true, s.driveReset_offers true, s.driveReset_cfg true,
      State.driveReset_true_record, step_driveReset_true hl, State.cmdReady_driveReset_false s.driveReset_true_seq⟩,
    fun hs => ⟨State.cmdReady_of_rst hs, State.rspValid_of_rst hs, State.snkValid_of_rst hs, s.clearByReset,
      step_reset hl hs, s.clearByReset_seq, s.clearByReset_sampled⟩⟩

/-- Settles O17: a reset settles the outstanding write one way or the other, and the request it records is the outstanding
one. -/
theorem resetLeavesTheOutstandingWriteOpen : Obligations.ResetLeavesTheOutstandingWriteOpen := by
  intro s r hr
  obtain hsame | ⟨r', hr', hwrite, htrace, hview⟩ := s.settleOutstanding_cases
  · exact .inl hsame
  · obtain rfl : r = r' := Option.some.inj (hr.symm.trans hr')
    exact .inr ⟨hwrite, htrace, hview⟩

/-! ### The invariant from power-up on -/

/-- At power-up the block is IDLE with an empty record, so only the configuration is left to ask for. -/
theorem State.Inv.powerUp {c : Config} (hl : configLegal c = true) : (State.powerUp c).Inv where
  legal := hl
  view := rfl
  seq := rfl
  responses := rfl
  sampled := rfl
  reset _ := rfl

/-- Settles O51: the machine right after reset is at power-up, with a legal configuration. -/
theorem powerUpMeetsTheInvariant : Obligations.PowerUpMeetsTheInvariant := by
  obtain ⟨-, -, -, -, -, -, -, hlegal, -⟩ := resetLeaves
  exact ⟨fun _ hl => .powerUp hl, .powerUp hlegal⟩

/-- Settles O54, by induction on how the state is reached. -/
theorem reachableStatesMeetTheInvariant : Obligations.ReachableStatesMeetTheInvariant := by
  intro s h
  induction h with
  | powerUp c hl => exact .powerUp hl
  | step s t _ hstep ih => exact stepKeepsTheInvariant s t ih hstep
  | env s m _ ih => exact environmentKeepsTheInvariant s m ih

end Sys2Proof.Machine
end


section
/-! SUPPORT. The codes and components that descriptors carry (spec/30_encoding.md R59 to R62): what the decoder reads from
a field is well-formed, and a well-formed operand is read from the field it is written to. -/

namespace Sys2Proof

/-! ### Keyword and channel codes -/

theorem KwCode.ofBits_bits {k : KwCode} (hk : k.wf = true) : KwCode.ofBits k.bits = k := by
  cases k with
  | known kw => cases kw <;> rfl
  | unrecognized code =>
    have hhigh : ∀ code : BitVec 4, 9 ≤ code.toNat → KwCode.ofBits code = .unrecognized code := by decide
    exact hhigh code (of_decide_eq_true hk)

theorem KwCode.wf_ofBits : ∀ code : BitVec 4, (KwCode.ofBits code).wf = true := by decide

theorem ChannelSel.ofBits_bits {ch : ChannelSel} (hch : ch.wf = true) : ChannelSel.ofBits ch.bits = ch := by
  cases ch with
  | channel s => cases s <;> rfl
  | noChannel code =>
    have hother : ∀ code : BitVec 2, (ChannelSel.noChannel code).wf = true →
        ChannelSel.ofBits code = .noChannel code := by decide
    exact hother code hch

theorem ChannelSel.wf_ofBits : ∀ code : BitVec 2, (ChannelSel.ofBits code).wf = true := by decide

/-! ### Components and speeds -/

theorem toInt_ofInt_of_componentWf {a : Int} (ha : componentWf a = true) : (BitVec.ofInt 16 a).toInt = a := by
  obtain ⟨hlo, hhi⟩ := of_decide_eq_true ha
  exact BitVec.toInt_ofInt_eq_self (by decide) hlo (by omega)

theorem componentWf_toInt (x : BitVec 16) : componentWf x.toInt = true := by
  have hlo := x.le_toInt
  have hhi := x.toInt_lt
  exact decide_eq_true (by omega)

/-- A descriptor assembled with the operand of a pair of speeds carries them where `has_speed` is set (R60). -/
theorem speedsOf_assemble (op kw : BitVec 4) (hasSpeed dir : Bool) (ch : BitVec 2) (p : SpeedPair) :
    speedsOf (assemble op kw hasSpeed dir ch (speedOperand p)) = if hasSpeed then some p else none := by
  rw [speedsOf, hasSpeed_assemble, operand_assemble, speedOperand_a, speedOperand_b]

/-- Without `has_speed` the operand plays no part (R60). -/
theorem speedsOf_assemble_false (op kw : BitVec 4) (dir : Bool) (ch : BitVec 2) (operand : Operand) :
    speedsOf (assemble op kw false dir ch operand) = none := by
  rw [speedsOf, hasSpeed_assemble]
  rfl

end Sys2Proof
end

section
/-! PROOF. The statements about descriptors and the commands they stand for (spec/30_encoding.md). -/

namespace Sys2Proof

open Sys2Proof.Machine Sys2Proof.Claims

/-! ### Decoding and encoding -/

/-- Settles O1. Every field of an assembled descriptor reads back; what is left are the operands that have a code. -/
theorem decodeOfEncodeIsTheCommand : Obligations.DecodeOfEncodeIsTheCommand := by
  intro i hwf
  cases i with
  | driveKw k speeds =>
    have hk := KwCode.ofBits_bits (k := k) hwf
    cases speeds with
    | none => simp [encode, Command.ofDesc, decode, speedsOf_assemble_false, hk]
    | some p => simp [encode, Command.ofDesc, decode, speedsOf_assemble, hk]
  | driveVec a b =>
    obtain ⟨ha, hb⟩ := Bool.and_eq_true_iff.mp hwf
    simp [encode, Command.ofDesc, decode, toInt_ofInt_of_componentWf ha, toInt_ofInt_of_componentWf hb]
  | servoStep ch up => simp [encode, Command.ofDesc, decode, ChannelSel.ofBits_bits (ch := ch) hwf]
  | servoSweep ch up => simp [encode, Command.ofDesc, decode, ChannelSel.ofBits_bits (ch := ch) hwf]
  | _ => simp [encode, Command.ofDesc, decode]

/-- Settles O2: in each row of the decoder, what is read from a field is in the field's range. -/
theorem everyDescriptorDecodesWellFormed : Obligations.EveryDescriptorDecodesWellFormed := by
  intro d h
  have hvector : (Instr.driveVec (d.operand.extractLsb' 0 16).toInt (d.operand.extractLsb' 16 16).toInt).wf = true :=
    Bool.and_eq_true_iff.mpr ⟨componentWf_toInt _, componentWf_toInt _⟩
  unfold decode
  split
  case h_6 => exact KwCode.wf_ofBits d.kw
  case h_7 => exact hvector
  case h_10 | h_11 => exact ChannelSel.wf_ofBits d.ch
  all_goals rfl

/-- Settles O3, form by form. -/
theorem fixedFormsOfTheSpecDecode : Obligations.FixedFormsOfTheSpecDecode := by
  unfold Obligations.FixedFormsOfTheSpecDecode
  decide

/-- Settles O4, form by form. -/
theorem assemblyTextOfTheFixedForms : Obligations.AssemblyTextOfTheFixedForms := by
  unfold Obligations.AssemblyTextOfTheFixedForms
  decide

/-! ### The assembly formula -/

theorem assemble_toNat (op kw : BitVec 4) (hasSpeed dir : Bool) (ch : BitVec 2) (operand : Operand) :
    (assemble op kw hasSpeed dir ch operand).toNat =
      op.toNat * 2 ^ 60 + kw.toNat * 2 ^ 56 + hasSpeed.toNat * 2 ^ 55 + dir.toNat * 2 ^ 54 + ch.toNat * 2 ^ 52 +
        operand.toNat := by
  change @BitVec.toNat (4 + 4 + 1 + 1 + 2 + 20 + 32)
    (op ++ kw ++ BitVec.ofBool hasSpeed ++ BitVec.ofBool dir ++ ch ++ 0#20 ++ operand) = _
  simp only [toNat_append_eq_add, BitVec.toNat_ofBool, BitVec.toNat_ofNat]
  omega

theorem vectorOperand_toNat (a b : Int) :
    ((vectorOperand a b).toNat : Int) = b % 2 ^ 16 * 2 ^ 16 + a % 2 ^ 16 := by
  change ((@BitVec.toNat (16 + 16) (BitVec.ofInt 16 b ++ BitVec.ofInt 16 a) : Nat) : Int) = _
  simp only [toNat_append_eq_add, BitVec.toNat_ofInt]
  omega

theorem speedOperand_toNat (p : SpeedPair) : (speedOperand p).toNat = p.b.toNat * 2 ^ 8 + p.a.toNat := by
  change @BitVec.toNat (16 + 8 + 8) (0#16 ++ p.b ++ p.a) = _
  simp only [toNat_append_eq_add, BitVec.toNat_ofNat]
  omega

/-- Settles O7: each field is appended above the ones below it. -/
theorem assembledDescriptorHasTheSumValue : Obligations.AssembledDescriptorHasTheSumValue :=
  ⟨assemble_toNat, vectorOperand_toNat, speedOperand_toNat⟩

end Sys2Proof
end

section
/-! SUPPORT. What a drive command leaves at an actuator that it writes (R25): the entry before plays no part; and which
actuators every drive command of status OK writes (spec/41_motor_drive_dispatcher.md R94, R96, R97). -/

namespace Sys2Proof.Machine

open Sys2Proof.Claims

/-! ### Actuators written -/

theorem SinkView.AgreeAt.symm {v w : SinkView} {x : Actuator} (h : v.AgreeAt w x) : w.AgreeAt v x := by
  rcases x with ⟨⟨⟩⟩ | ⟨⟨⟩⟩ | ⟨⟨⟩⟩ <;> exact Eq.symm h

/-- An event makes any two views agree at the actuator it writes (R25). -/
theorem SinkView.after_agreeAt_of_writes {e : Event} {x : Actuator} (h : e.writes = some x) (v w : SinkView) :
    (v.after e).AgreeAt (w.after e) x := by
  cases e with
  | dir l level => cases h; cases l <;> rfl
  | duty c d => cases h; cases c <;> rfl
  | pulse s us => cases h; cases s <;> rfl
  | read s angle => cases h
  | sleep d => cases h

/-- An event leaves views that agree at an actuator agreeing there: it writes the actuator in both or in neither. -/
theorem SinkView.AgreeAt.after {v w : SinkView} {x : Actuator} (h : v.AgreeAt w x) (e : Event) :
    (v.after e).AgreeAt (w.after e) x := by
  by_cases hx : e.writes = some x
  · exact SinkView.after_agreeAt_of_writes hx v w
  · exact (SinkView.after_agreeAt hx v).trans (h.trans (SinkView.after_agreeAt hx w).symm)

theorem SinkView.AgreeAt.foldl {v w : SinkView} {x : Actuator} (h : v.AgreeAt w x) (es : List Event) :
    (es.foldl SinkView.after v).AgreeAt (es.foldl SinkView.after w) x := by
  induction es generalizing v w with
  | nil => exact h
  | cons e es ih => exact ih (h.after e)

/-- Events of which one writes an actuator leave there what does not depend on the view before them. -/
theorem SinkView.foldl_agreeAt_of_writes {es : List Event} {e : Event} (he : e ∈ es) {x : Actuator}
    (h : e.writes = some x) (v w : SinkView) :
    (es.foldl SinkView.after v).AgreeAt (es.foldl SinkView.after w) x := by
  obtain ⟨before, rest, rfl⟩ := List.append_of_mem he
  simp only [List.foldl_append, List.foldl_cons]
  exact (SinkView.after_agreeAt_of_writes h _ _).foldl rest

/-- A command that reads nothing leaves an actuator it writes the same from any two ready states of one
configuration. -/
theorem State.Ready.exec_agreeAt_of_writes {s s' t t' : State} {i : Instr} (h : s.Ready) (h' : s'.Ready)
    (hcfg : s'.cfg = s.cfg) (hreads : ∀ op ∈ (program s.cfg i).2, op.reads = false) {op : Op}
    (hop : op ∈ (program s.cfg i).2) {x : Actuator} (hx : op.writes = some x) (ht : exec i s = .next t)
    (ht' : exec i s' = .next t') : t.view.AgreeAt t'.view x := by
  rw [h.exec_reads_nothing hreads] at ht
  rw [h'.exec_reads_nothing (by rwa [hcfg]), hcfg] at ht'
  obtain rfl := Host.Outcome.next.inj ht
  obtain rfl := Host.Outcome.next.inj ht'
  exact SinkView.foldl_agreeAt_of_writes (List.mem_map_of_mem hop) (by simpa using hx) _ _

/-! ### What drive commands of status OK write -/

/-- A direction keyword of status OK drives its row's primitive (R105, R106). -/
theorem keywordPlan_go {c : Config} {k : Keyword} {e : KwEntry} (he : kwEntry c.kwTable k = some e)
    {speeds : Option SpeedPair} (hok : statusOf c (.driveKw (.known k) speeds) = .ok) :
    ∃ sA sB, (keywordPlan c (.known k) speeds).2 = [.go e.prim sA sB] := by
  classical
  rw [← keywordPlan_status, keywordPlan_eq_ite he] at hok
  rw [keywordPlan_eq_ite he]
  split_ifs at hok ⊢ with hin hreject
  · exact ⟨_, _, rfl⟩
  · exact ⟨_, _, rfl⟩

/-- Every keyword but `stop` has a row (R104). -/
theorem kwEntry_ne_none {k : Keyword} (hk : k ≠ .stop) (t : KwTable) : ∃ e, kwEntry t k = some e := by
  cases k with
  | stop => exact absurd rfl hk
  | _ => exact ⟨_, rfl⟩

theorem driveOps_subset_flatMap (c : Config) {ps : List Primitive} {p : DirPrim} {sA sB : Byte}
    (h : .go p sA sB ∈ ps) : driveOps (levelsOf c p).a (levelsOf c p).b sA sB ⊆ ps.flatMap (primitiveOps c) :=
  fun _ hop => List.mem_flatMap.mpr ⟨.go p sA sB, h, hop⟩

theorem not_hexRejected_of_hexAccepted {c : Config} {h : HexSeq} (hacc : hexAccepted c h = true) :
    ¬ HexRejected c h := by
  have hlen := of_decide_eq_true hacc
  unfold HexRejected
  omega

/-- A drive command of status OK drives both lines and both duties, unless it is `stop` (R94, R97). -/
theorem driveOps_subset_program {c : Config} {i : Instr} (hd : isDrive i = true) (hok : statusOf c i = .ok)
    (hstop : ∀ speeds, i ≠ .driveKw (.known .stop) speeds) :
    ∃ lA lB sA sB, driveOps lA lB sA sB ⊆ (program c i).2 := by
  cases i with
  | motorRaw v => exact ⟨_, _, _, _, List.Subset.refl _⟩
  | motorHex h =>
    have hacc : hexAccepted c h = true := by simpa [statusOf] using hok
    rw [program, hexProgram_of_accepted (not_hexRejected_of_hexAccepted hacc)]
    exact ⟨_, _, _, _, List.Subset.refl _⟩
  | driveKw k speeds =>
    cases k with
    | unrecognized code => cases hok
    | known kw =>
      obtain ⟨e, he⟩ := kwEntry_ne_none (k := kw) (by rintro rfl; exact hstop speeds rfl) c.kwTable
      obtain ⟨sA, sB, hplan⟩ := keywordPlan_go he hok
      exact ⟨_, _, _, _, driveOps_subset_flatMap c (by rw [hplan]; exact List.mem_singleton_self _)⟩
  | driveVec a b =>
    have hin : a.natAbs ≤ c.speedMax ∧ b.natAbs ≤ c.speedMax := by simpa [statusOf] using hok
    obtain ⟨ps, hps⟩ := vecPrimitives_ends c a b
    have hgo : vecGo (decidingCase c a b) a b ∈ vectorPrimitives c a b := by simp [vectorPrimitives, hps]
    rw [program, if_pos (by simp [componentInRange_iff, hin])]
    exact ⟨_, _, _, _, driveOps_subset_flatMap c hgo⟩
  | _ => cases hd

/-- A drive command of status OK other than `stop` writes every line (R94, R97). -/
theorem drive_writes_line {c : Config} {i : Instr} (hd : isDrive i = true) (hok : statusOf c i = .ok)
    (hstop : ∀ speeds, i ≠ .driveKw (.known .stop) speeds) (w : Wheel) :
    ∃ op ∈ (program c i).2, op.writes = some (.line w) := by
  obtain ⟨lA, lB, sA, sB, hsub⟩ := driveOps_subset_program hd hok hstop
  cases w with
  | a => exact ⟨.dir .a lA, hsub (by simp [driveOps]), rfl⟩
  | b => exact ⟨.dir .b lB, hsub (by simp [driveOps]), rfl⟩

/-- A drive command of status OK, `stop` too, writes every duty (R94, R96, R97). -/
theorem drive_writes_duty {c : Config} {i : Instr} (hd : isDrive i = true) (hok : statusOf c i = .ok) (w : Wheel) :
    ∃ op ∈ (program c i).2, op.writes = some (.duty w) := by
  by_cases hstop : ∃ speeds, i = .driveKw (.known .stop) speeds
  · obtain ⟨speeds, rfl⟩ := hstop
    have hops : (program c (.driveKw (.known .stop) speeds)).2 = [.duty .a 0, .duty .b 0] := rfl
    exact ⟨.duty w 0, by rw [hops]; cases w <;> simp, rfl⟩
  · obtain ⟨lA, lB, sA, sB, hsub⟩ := driveOps_subset_program hd hok (not_exists.mp hstop)
    cases w with
    | a => exact ⟨.duty .a sA, hsub (by simp [driveOps]), rfl⟩
    | b => exact ⟨.duty .b sB, hsub (by simp [driveOps]), rfl⟩

theorem reads_of_isDrive {c : Config} {i : Instr} (hd : isDrive i = true) {op : Op} (hop : op ∈ (program c i).2) :
    op.reads = false := by
  obtain ⟨l, level, rfl⟩ | ⟨w, v, rfl⟩ := mem_program_of_isDrive hd hop <;> rfl

/-! ### The statement -/

/-- Settles O33: what a command of status OK writes is decided by its operations; `stop` writes no line. -/
theorem driveResultForgetsTheHistory : Obligations.DriveResultForgetsTheHistory := by
  intro i s s' t t' hd hok h h' hcfg ht ht'
  have hsame {x : Actuator} (hx : ∃ op ∈ (program s.cfg i).2, op.writes = some x) : t.view.AgreeAt t'.view x := by
    obtain ⟨op, hop, hwrites⟩ := hx
    exact h.exec_agreeAt_of_writes h' hcfg (fun _ => reads_of_isDrive hd) hop hwrites ht ht'
  obtain ⟨-, -, -, hstop, -⟩ := commandFrame i s t ht
  exact ⟨hsame (drive_writes_duty hd hok .a), hsame (drive_writes_duty hd hok .b),
    fun hne => ⟨hsame (drive_writes_line hd hok hne .a), hsame (drive_writes_line hd hok hne .b)⟩, hstop⟩

end Sys2Proof.Machine
end

section
/-! PROOF. The number of events of a ramp and of a sweep (spec/42_servo_linear_interpolator.md R129, R144). -/

namespace Sys2Proof.Machine

open Sys2Proof.Claims

theorem length_flatMap_of_length_eq {α β : Type} {f : α → List β} {n : Nat} (hf : ∀ x, (f x).length = n)
    (l : List α) : (l.flatMap f).length = l.length * n := by
  simp [List.length_flatMap, hf]

/-- A frame has the pulse of each active channel and a delay (R127). -/
theorem length_frameEvents (c : Config) (act1 act2 : Bool) (t1 t2 cur1 cur2 : Byte) (i : Nat) :
    (frameEvents c act1 act2 t1 t2 cur1 cur2 i).length = act1.toNat + act2.toNat + 1 := by
  cases act1 <;> cases act2 <;> rfl

theorem length_sweepEvents (c : Config) (ch : Servo) (up : Bool) :
    (sweepEvents c ch up).length = 2 * (c.posMax - c.posMin + 1) := by
  rw [sweepEvents, length_flatMap_of_length_eq (n := 2) fun _ => rfl, List.length_range, Nat.mul_comm]

theorem isRead_of_mem_sweepEvents {c : Config} {ch : Servo} {up : Bool} {e : Event} (he : e ∈ sweepEvents c ch up) :
    e.isRead = false := by
  simp only [sweepEvents, List.mem_flatMap, List.mem_cons, List.not_mem_nil, or_false] at he
  obtain ⟨k, -, rfl | rfl⟩ := he <;> rfl

/-- A servo word with an active channel issues a READ of each and then the frames (R123, R127). -/
theorem length_trace_servoDone {v : Operand} (hactive : (v.getLsbD 16 || v.getLsbD 17) = true) (s : State) :
    (servoDone v s).trace.length = s.trace.length + ((v.getLsbD 16).toNat + (v.getLsbD 17).toNat) +
      (s.cfg.frames + 1) * ((v.getLsbD 16).toNat + (v.getLsbD 17).toNat + 1) := by
  have hsome : ¬ (v.getLsbD 16 = false ∧ v.getLsbD 17 = false) := by
    rintro ⟨h16, h17⟩
    rw [h16, h17] at hactive
    cases hactive
  rw [servoDone, if_neg hsome]
  simp only [State.finish, List.length_append, length_flatMap_of_length_eq (length_frameEvents _ _ _ _ _ _ _),
    List.length_range]
  cases v.getLsbD 16 <;> cases v.getLsbD 17 <;> simp <;> omega

/-- Settles O38: the events are those of the commands' closed forms, counted frame by frame and position by position. -/
theorem servoEventCounts : Obligations.ServoEventCounts := by
  refine ⟨fun v s t h ht hactive => ?_, fun ch up s t h ht => ?_⟩
  · rw [servoRawRampsTheActiveChannels v s h] at ht
    obtain rfl := Host.Outcome.next.inj ht
    exact length_trace_servoDone hactive s
  · rw [(servoSweepWritesEveryPosition up s h).2 ch] at ht
    obtain rfl := Host.Outcome.next.inj ht
    have htrace : (s.finish (zeroReply .ok) (sweepEvents s.cfg ch up)).trace = s.trace ++ sweepEvents s.cfg ch up := rfl
    rw [htrace, List.length_append, length_sweepEvents, List.drop_left]
    exact ⟨rfl, fun e => isRead_of_mem_sweepEvents⟩

end Sys2Proof.Machine
end
